-- ==== Sys2Proof/Word.lean ====
section
/-! DEFINITION. Word types of the Heddle HL1216: the fields the manual counts and masks as bits, and the node numbers. -/
namespace Sys2Proof

/-- A byte of a cell or of a host line frame. -/
abbrev Byte := BitVec 8

/-- A 16-bit field: frame numbers, counters, sets of nodes as they are sent. -/
abbrev Half := BitVec 16

/-- A 4-bit field: message numbers, owner codes, node fields of a cell. -/
abbrev Nibble := BitVec 4

/-- A station's number on the link, 0 to 11 (00_scope.md, "Node"). -/
abbrev Node := Fin 12

/-- A slot of the frame, 0 to 15 (R2). -/
abbrev Slot := Fin 16

/-- A set of nodes: bit n stands for node n.  The four bits above node 11 that a set has on the wire are always 0 there
(00_scope.md, "Conventions"), so a held set has twelve bits. -/
abbrev NodeSet := BitVec 12

/-- A set of message numbers 0 to 15: bit n stands for number n (R67). -/
abbrev NumberSet := BitVec 16

/-- A ticket, 1 to 65535; the value 0 is never given (R59). -/
abbrev Ticket := BitVec 16

/-- The owner of a slot: a node, or none for the map code 15 (R34). -/
abbrev Owner := Option Node

end Sys2Proof
end

