-- ==== Sys2Proof/Syntax.lean ====
section
/-! DEFINITION. The commands of the block: one constructor of `Instr` for each row of spec/opcode_table.json, with the row's
operands.  Requests carry their sequence and their parameter bytes as the host sends them, so that a body of any length can be
commanded (R129, R140). -/
namespace Sys2Proof

/-- The seventeen request kinds (09_host_requests.md, first table). -/
inductive RequestKind where
  | ident | status | configure | attach | detach
  | mapStage | mapCommit | mapWithdraw | mapRead
  | send | cancel | queryTicket | fetchMessage | fetchEvent
  | counters | peerRead | reset
deriving DecidableEq, Repr

/-- All request kinds, in the order of the table of 09_host_requests.md. -/
def RequestKind.all : List RequestKind :=
  [.ident, .status, .configure, .attach, .detach, .mapStage, .mapCommit, .mapWithdraw, .mapRead, .send, .cancel,
   .queryTicket, .fetchMessage, .fetchEvent, .counters, .peerRead, .reset]

/-- The code byte of a request kind (09_host_requests.md, first table). -/
def RequestKind.code : RequestKind → Byte
  | .ident => 0x01
  | .status => 0x02
  | .configure => 0x03
  | .attach => 0x04
  | .detach => 0x05
  | .mapStage => 0x10
  | .mapCommit => 0x11
  | .mapWithdraw => 0x12
  | .mapRead => 0x13
  | .send => 0x20
  | .cancel => 0x21
  | .queryTicket => 0x22
  | .fetchMessage => 0x30
  | .fetchEvent => 0x31
  | .counters => 0x40
  | .peerRead => 0x41
  | .reset => 0x7F

/-- What a frame error other than a gap was found in (R132). -/
inductive FrameFault where
  /-- a length byte below 2 or above 250 -/
  | badLength
  /-- a stop bit sampled low in a character after the lead byte -/
  | characterFault
  /-- the two CRC bytes differ from the CRC of the length byte and the body -/
  | crcMismatch
deriving DecidableEq, Repr

/-- The commands.  `seq` is a request's sequence byte and `params` its parameter bytes (bytes 4 to L + 1 of the request
frame, R129). -/
inductive Instr where
  -- host requests (09_host_requests.md): the characters of a good request of that kind arrive on HRX, its lead byte before them
  | ident (seq : Byte) (params : List Byte)
  | status (seq : Byte) (params : List Byte)
  | configure (seq : Byte) (params : List Byte)
  | attach (seq : Byte) (params : List Byte)
  | detach (seq : Byte) (params : List Byte)
  | mapStage (seq : Byte) (params : List Byte)
  | mapCommit (seq : Byte) (params : List Byte)
  | mapWithdraw (seq : Byte) (params : List Byte)
  | mapRead (seq : Byte) (params : List Byte)
  | send (seq : Byte) (params : List Byte)
  | cancel (seq : Byte) (params : List Byte)
  | queryTicket (seq : Byte) (params : List Byte)
  | fetchMessage (seq : Byte) (params : List Byte)
  | fetchEvent (seq : Byte) (params : List Byte)
  | counters (seq : Byte) (params : List Byte)
  | peerRead (seq : Byte) (params : List Byte)
  | reset (seq : Byte) (params : List Byte)
  | unknownKindRequest (kind seq : Byte) (params : List Byte)
  -- the host line (08_the_host_line.md)
  /-- `frame`: fault-free characters on HRX, one after another; those of a request's frame behind its lead byte are the length byte,
  the body and the two CRC bytes (R129) -/
  | requestReceived (frame : List Byte)
  | replyTransmissionEnd
  | hostFrameError (fault : FrameFault)
  | gapTimeout
  -- resets and start-up (R164, R165, R170)
  | resetTakesEffect
  | pinResetAssert
  /-- `straps`: the levels of HS1 and HS0 at the moment RSTN goes high (R128) -/
  | pinResetRelease (straps : BitVec 2)
  | startupIntervalEnd
  -- link timing (01_frames_slots_and_lock.md)
  | masterFrameBoundary
  /-- `count`: LCK periods since the member's reference point; not read in SEARCH (R8 to R11) -/
  | markObserved (count : Fin 4097)
  | missedMark
  | clockLoss
  | slotStart (slot : Slot)
  | passEnd
  /-- `image`: the thirty bytes sampled in the slot being received (R24) -/
  | cellReceived (image : List Byte)
  -- the blocks' work at an announced boundary (R15)
  | lifetimeExpiry (ticket : Ticket)
  | ackTimerExpiry (ticket : Ticket)
  | reassemblyTimeout (source : Node)
  | mapSwitch
  | detachCompletion
  /-- a character received on HRX, and whether it had a character fault: the lead byte of a frame, or any other (R131, R132) -/
  | leadByte (value : Byte) (fault : Bool)
deriving DecidableEq, Repr

end Sys2Proof
end

