-- ==== Sys2Proof/Decode.lean ====
section
/-! DEFINITION. The words of the command table.  spec/opcode_table.json gives no row any bits (every row's "fields" is
empty and none has a "fixed"), so no word spells a command. -/
namespace Sys2Proof

/-- The command that a word spells by the table's bits: none, since the table gives its rows no bits. -/
def decodeTableWord (_nbits _w : Nat) : Option Instr := none

end Sys2Proof
end

