-- ==== Sys2Proof/Config.lean ====
section
/-! DEFINITION. What the manual fixes for every part of this revision (the sizes IDENT reports, R142), and the free
choice and the free values that the manual leaves open. -/
namespace Sys2Proof.Config

/-- Stations on a link (R142). -/
def stations : Nat := 12

/-- Slots per frame (R2, R142). -/
def slotsPerFrame : Nat := 16

/-- Link clock periods per slot (R2). -/
def periodsPerSlot : Nat := 256

/-- Link clock periods per frame (R2). -/
def periodsPerFrame : Nat := 4096

/-- Bit times of a slot that carry a cell (R2). -/
def cellBits : Nat := 240

/-- Bytes of a cell (R2). -/
def cellBytes : Nat := 30

/-- Outbound records at most (R55). -/
def outboundRecords : Nat := 32

/-- Blocks of the outbound pool (R56). -/
def outboundBlocks : Nat := 64

/-- Places of the inbound mailbox, shared with assembling contexts (R104, R111). -/
def mailboxPlaces : Nat := 16

/-- Blocks of the inbound pool (R101). -/
def inboundBlocks : Nat := 96

/-- Places for results and outbound records together (R118). -/
def resultPlaces : Nat := 32

/-- Places for non-result events (R119). -/
def nonResultPlaces : Nat := 16

/-- Longest message in bytes (R57, R142). -/
def longestMessage : Nat := 128

/-- Longest body of a host line frame (R129, R142). -/
def longestBody : Nat := 250

/-- Boundaries without a cell after which a reassembly context is abandoned (R110). -/
def reassemblyFrames : Nat := 16

/-- FREE VALUE (log entry 3).  Where the manual says that two steps "may be taken in any order" and the sender of the
commands does not give the order, the order is this constant applied to the counter `State.choices`.  It has no body, so
nothing can be proved of the order taken. -/
opaque freeChoice : Nat → Nat

/-- FREE VALUE (log entry 22).  What byte 14 of MAP_READ reports when the distance to the pending map's effective frame does not
fit the byte: R149 gives the field the values 1 to 255 and says no more.  It has no body. -/
opaque farDistance : Half → Byte

/-- FREE VALUE (log entry 23).  The next index, 0 to 7, that QUERY_TICKET reports for the pass of a ticket and attempt while the last
of eight cells is sent: R68 counts it up once more, and R54 and R152 end its range at 7.  It has no body. -/
opaque fullIndex : BitVec 16 → Nat → BitVec 3

end Sys2Proof.Config
end

