-- ==== Sys2Proof/Machine/State.lean ====
section
/-! DEFINITION. The state of the HL1216, block by block as the manual's block overview lists it (00_scope.md), the reasons a
step can stop, and the state after a pin reset. -/
namespace Sys2Proof.Machine

/-! ## Station Control (10_joining_and_leaving_the_link.md) -/

/-- The station states (R157). -/
inductive StationState where
  | unconfigured | detached | attached | detaching
deriving DecidableEq, Repr

/-- The configured role (R157). -/
inductive Role where
  | member | master
deriving DecidableEq, Repr

/-- The six configuration items (R157). -/
structure Configuration where
  role : Role
  /-- 0 to 11, or none -/
  node : Option Node
  /-- 1 to 255, or 0 for none -/
  epoch : Byte
  rateCode : BitVec 2
  /-- W, 2 to 15 -/
  ackWait : Nat
  /-- 0 to 7 -/
  retryLimit : Nat
deriving DecidableEq, Repr

/-- Station Control: the station state and the configuration (R157). -/
structure Station where
  state : StationState
  config : Configuration
deriving DecidableEq, Repr

/-! ## Link Timing Unit (01_frames_slots_and_lock.md) -/

/-- OFF and DRIVING on a master; OFF and the four lock states on a member (R4, R8 to R11). -/
inductive LockState where
  | off | driving | search | verify | locked | coast
deriving DecidableEq, Repr

/-- The Link Timing Unit (R2, R7, R9, R11, R17, R19). -/
structure LinkTiming where
  lock : LockState
  frame : Half
  /-- LCK periods since the frame boundary or reference mark, as the last command told it; none while stopped (R2, R19) -/
  position : Option Nat
  missed : Nat
  /-- whether a valid control cell has arrived in the current frame (R8, R9) -/
  controlFlag : Bool
  permission : Bool
  /-- the frame was begun at a counted boundary of a member and R17's decision for it has not been made yet -/
  decisionDue : Bool
  /-- the least slot number of this frame whose start has not been announced (the model's own; R16) -/
  nextSlot : Nat
deriving DecidableEq, Repr

/-! ## Map Unit (03_the_slot_map.md) -/

/-- The owners of slots 1 to 15: slot k is entry k - 1 (R34). -/
abbrev SlotOwners := Vector Owner 15

/-- A numbered version of the slot map (R34). -/
structure SlotMap where
  owners : SlotOwners
  generation : Byte
deriving DecidableEq, Repr

/-- A map with the frame in which it takes effect (R38, R47). -/
structure PendingMap where
  map : SlotMap
  effective : Half
deriving DecidableEq, Repr

/-- The fate of the last commit (R39). -/
inductive CommitOutcome where
  | nothing | pending | applied | withdrawn
deriving DecidableEq, Repr

/-- The Map Unit (R34, R35, R38, R39, R42, R44, R51). -/
structure MapUnit where
  active : Option SlotMap
  /-- the active generation as the current frame's boundary left it (R35) -/
  frameGeneration : Option Byte
  pendingMap : Option PendingMap
  staged : SlotOwners
  masterNode : Option Node
  masterRate : Option (BitVec 2)
  outcome : CommitOutcome
  /-- the 16 payload bytes composed for the control cell of the current frame (R42, R43); none before the first -/
  content : Option (List Byte)
deriving DecidableEq, Repr

/-! ## Transmit Scheduler (04_the_outbound_queue.md, 05_acknowledged_delivery.md) -/

/-- The class of a message (R54). -/
inductive MsgClass where
  | routine | urgent
deriving DecidableEq, Repr

/-- The state of an outbound record (R54). -/
inductive RecordState where
  | queued | sending | awaiting | retry
deriving DecidableEq, Repr

/-- The kind of a pass (R64). -/
inductive PassKind where
  | first | retransmission
deriving DecidableEq, Repr

/-- What a record holds while it is SENDING (R54, R64). -/
structure Pass where
  kind : PassKind
  /-- the destination set that the cells of the pass carry -/
  set : NodeSet
  /-- the cells of the pass that have begun (R68); the last of eight makes it 8, which R54's range leaves out (log entry 23) -/
  nextIndex : Nat
deriving DecidableEq, Repr

/-- An outbound record (R54).  Its length is the length of its payload. -/
structure Record where
  ticket : Ticket
  cls : MsgClass
  ackreq : Bool
  dest : NodeSet
  /-- the destinations that have not acknowledged; empty for an unacknowledged record (R152) -/
  pendingSet : NodeSet
  tag : Byte
  payload : List Byte
  /-- frames remaining while QUEUED; 0 means no limit -/
  lifetime : Half
  number : Option Nibble
  attempts : Nat
  state : RecordState
  cancelRequested : Bool
  ackTimer : Nat
  pass : Option Pass
deriving DecidableEq, Repr

/-- The cell that the part is driving on LDAT (R3, R20 to R23). -/
structure SentCell where
  slot : Slot
  image : List Byte
  /-- the ticket of the record whose pass this cell is the last of (R69) -/
  endsPassOf : Option Ticket
deriving DecidableEq, Repr

/-- The Transmit Scheduler (R55, R56, R59, R66, R67, R89). -/
structure Scheduler where
  /-- in order of acceptance (R55) -/
  records : List Record
  /-- the tickets of the RETRY records in order of their entry into RETRY (R55, R87, R97) -/
  retryOrder : List Ticket
  freeBlocks : Nat
  sendTable : Vector (Option Nibble) 12
  openSets : Vector NumberSet 12
  nextTicket : Ticket
  lastNumber : Nibble
  cell : Option SentCell
deriving DecidableEq, Repr

/-! ## Receive Unit (02_cells_on_the_link.md, 05, 06_reassembly_and_the_inbound_mailbox.md) -/

/-- An entry of the receive peer table (R77). -/
structure Peer where
  epoch : Option Byte
  lastAccepted : Option Nibble
deriving DecidableEq, Repr

/-- An owed acknowledgement (R81). -/
structure Owed where
  source : Node
  number : Nibble
  epoch : Byte
deriving DecidableEq, Repr

/-- What an ASSEMBLING context holds (R99).  The cell count and the blocks taken follow from the total length. -/
structure Assembly where
  nextIndex : Nat
  total : Nat
  bytes : List Byte
  tag : Byte
  ackreq : Bool
  number : Nibble
  frames : Nat
deriving DecidableEq, Repr

/-- A reassembly context (R99). -/
inductive Context where
  | idle
  | assembling (a : Assembly)
  | discarding (frames : Nat)
deriving DecidableEq, Repr

/-- A mailbox entry (R109).  Its length is the length of its payload. -/
structure Entry where
  source : Node
  tag : Byte
  payload : List Byte
  ackreq : Bool
  lostBefore : Byte
  frame : Half
deriving DecidableEq, Repr

/-- The Receive Unit (R24, R27, R77, R81, R99, R101, R105, R111). -/
structure Receiver where
  peers : Vector Peer 12
  /-- oldest first (R81) -/
  owed : List Owed
  contexts : Vector Context 12
  freeBlocks : Nat
  /-- oldest first (R111) -/
  mailbox : List Entry
  /-- the unacknowledged-loss count (R105, R109) -/
  lossCount : Byte
  /-- the generation announced by the control cell of the current frame (R27) -/
  controlRecord : Option Byte
  /-- the slot whose reception is in progress (R24, R33) -/
  receiving : Option Slot
deriving DecidableEq, Repr

/-! ## Event Queue (07_the_event_queue_and_the_attention_line.md) -/

/-- How a posted message ended (R117); `partly` is PARTIAL. -/
inductive ResultOutcome where
  | sent | delivered | partly | failed | expired | cancelled | flushed
deriving DecidableEq, Repr

/-- Why lock was lost (R13, R117). -/
inductive LossCause where
  | marksMissed | markMisplaced | clockLost
deriving DecidableEq, Repr

/-- The kind of an event with its data (R117). -/
inductive EventKind where
  | result (ticket : Ticket) (outcome : ResultOutcome) (attempts : Nat) (dest acked : NodeSet)
  | linkUp (master : Option Node)
  | linkDown (cause : LossCause)
  | mapApplied (generation : Byte) (effective : Half)
  | mapResync (old : Option Byte) (new : Byte)
  | peerEpoch (node : Node) (old new : Byte)
  | detached (flushed : Nat)
deriving DecidableEq, Repr

/-- An event record (R117). -/
structure EventRecord where
  kind : EventKind
  lostBefore : Byte
  frame : Half
deriving DecidableEq, Repr

/-- The Event Queue (R118, R119, R122, R123). -/
structure EventQueue where
  /-- oldest first (R123) -/
  records : List EventRecord
  heldCount : Nat
  nonResultCount : Nat
  pendingLost : Byte
deriving DecidableEq, Repr

/-! ## Host Port (08_the_host_line.md) -/

/-- The status codes of a reply (R130). -/
inductive Status where
  | ok | empty | badLength | badParam | unknownKind | wrongState | notMaster | queueFull | poolFull | tooLong
  | noSuchTicket | cancelPending | detachPending | mapPending | tooLate | nothingPending | queueNotEmpty
deriving DecidableEq, Repr

/-- A reply as execution fixes it (R130, R134): everything but the flags. -/
structure Reply where
  /-- the reply kind: the request kind plus 0x80, modulo 256 -/
  kind : Byte
  seq : Byte
  status : Status
  data : List Byte
deriving DecidableEq, Repr

/-- The reply in transmission, with the flags composed when its transmission began (R135), and whether it is the reply of a
RESET request, at whose end the reset takes effect (R164). -/
structure SentReply where
  reply : Reply
  replay : Bool
  overrun : Bool
  resets : Bool
deriving DecidableEq, Repr

/-- A complete good request (R129). -/
structure HostRequest where
  kind : Byte
  seq : Byte
  params : List Byte
deriving DecidableEq, Repr

/-- The receive state of the Host Port (R131, R132): IDLE, or IN_FRAME with the characters taken after the lead byte, none at
first. -/
inductive ReceiveState where
  | idle
  | inFrame (taken : List Byte)
deriving DecidableEq, Repr

/-- The Host Port (R128, R131, R134 to R137). -/
structure HostPort where
  receive : ReceiveState
  kept : Option Reply
  waiting : Option HostRequest
  overrun : Bool
  /-- the strapped rate code, HS1 then HS0 -/
  rate : BitVec 2
  sending : Option SentReply
deriving DecidableEq, Repr

/-! ## The counters (R166) -/

/-- The fourteen counters, in the order COUNTERS reports them (R155). -/
structure Counters where
  good : Half
  bad : Half
  emptySlots : Half
  foreign : Half
  silentFrames : Half
  lockLosses : Half
  staleAcks : Half
  duplicates : Half
  breaks : Half
  noRoom : Half
  retransmissions : Half
  frameErrors : Half
  overruns : Half
  eventsLost : Half
deriving DecidableEq, Repr

/-! ## The whole part -/

/-- RSTN low, the start-up interval after it, and normal running (R165, R170). -/
inductive Phase where
  | held | startup | running
deriving DecidableEq, Repr

/-- Work that an announced boundary has left to a block and that has not been done yet (R15, R163).  The model's own: the table
of commands has a row for each of these, and their order is the sender's. -/
inductive Work where
  /-- the record of this ticket reached the end of its lifetime at the boundary (R71) -/
  | lifetime (ticket : Ticket)
  /-- the record of this ticket had its ack timer run out at the boundary (R87) -/
  | ackTimer (ticket : Ticket)
  /-- the context of this source has gone 16 boundaries without a cell (R110) -/
  | reassembly (source : Node)
  /-- the boundary begins the pending map's effective frame (R41, R48) -/
  | mapSwitch
  /-- the boundary completes a detach (R161) -/
  | completion
deriving DecidableEq, Repr

/-- The state of the part.  `due` and `choices` are the model's own (log entries 2 and 3); `pending` is the queue of
commands that wait (log entry 1). -/
structure State where
  phase : Phase
  station : Station
  link : LinkTiming
  map : MapUnit
  tx : Scheduler
  rx : Receiver
  events : EventQueue
  host : HostPort
  counters : Counters
  /-- boundary work announced and not yet done -/
  due : List Work
  /-- the Transmit Scheduler has begun its work at the boundary that completes a detach, so the rest of that work comes before the
  completion (R163) -/
  schedulerBegun : Bool
  /-- how many orders have been drawn from `Config.freeChoice` -/
  choices : Nat
  /-- the commands that wait, first in, first out -/
  pending : List Instr
deriving DecidableEq, Repr

/-- Why the part stops with a fault.  There is no constructor: no rule of the manual stops the part.  A misuse is answered
with a status code, counted, or has no effect.  Safe: nothing is cut off. -/
inductive Fault where
deriving DecidableEq, Repr

/-- Why the model has no meaning for a command. -/
inductive Refusal where
  /-- Raised by an arm of `exec` whose row has no meaning yet; safe, since a refused step has no next state.  No arm of this
  model raises it. -/
  | notModelled (mnemonic : String)
deriving DecidableEq, Repr

/-! ## Values after a reset -/

/-- Slots 1 to 15 without an owner (R52). -/
def SlotOwners.noOwner : SlotOwners := Vector.replicate 15 none

/-- Station Control after a reset (R157). -/
def Station.reset : Station :=
  { state := .unconfigured
    config := { role := .member, node := none, epoch := 0, rateCode := 2, ackWait := 4, retryLimit := 3 } }

/-- The Link Timing Unit after a reset (R19). -/
def LinkTiming.reset : LinkTiming :=
  { lock := .off, frame := 0, position := none, missed := 0, controlFlag := false, permission := false,
    decisionDue := false, nextSlot := 0 }

/-- The Map Unit after a reset (R52). -/
def MapUnit.reset : MapUnit :=
  { active := none, frameGeneration := none, pendingMap := none, staged := SlotOwners.noOwner, masterNode := none,
    masterRate := none, outcome := .nothing, content := none }

/-- The Transmit Scheduler after a reset (R76). -/
def Scheduler.reset : Scheduler :=
  { records := [], retryOrder := [], freeBlocks := Config.outboundBlocks, sendTable := Vector.replicate 12 none,
    openSets := Vector.replicate 12 0, nextTicket := 1, lastNumber := 15, cell := none }

/-- The Receive Unit after a reset (R33, R77, R82, R116). -/
def Receiver.reset : Receiver :=
  { peers := Vector.replicate 12 { epoch := none, lastAccepted := none }, owed := [],
    contexts := Vector.replicate 12 .idle, freeBlocks := Config.inboundBlocks, mailbox := [], lossCount := 0,
    controlRecord := none, receiving := none }

/-- The Event Queue after a reset (R127). -/
def EventQueue.reset : EventQueue := { records := [], heldCount := 0, nonResultCount := 0, pendingLost := 0 }

/-- The Host Port after a reset, at a strapped rate (R139). -/
def HostPort.reset (rate : BitVec 2) : HostPort :=
  { receive := .idle, kept := none, waiting := none, overrun := false, rate := rate, sending := none }

/-- The counters after a reset, and after a clearing COUNTERS (R166, R167). -/
def Counters.zero : Counters :=
  { good := 0, bad := 0, emptySlots := 0, foreign := 0, silentFrames := 0, lockLosses := 0, staleAcks := 0,
    duplicates := 0, breaks := 0, noRoom := 0, retransmissions := 0, frameErrors := 0, overruns := 0, eventsLost := 0 }

/-- The part right after a pin reset or a power-on: every block at its pin-reset values, the start-up interval begun (R165,
R170).  The straps are read as 00, which the manual does not fix (log entry 4). -/
def State.reset : State :=
  { phase := .startup, station := Station.reset, link := LinkTiming.reset, map := MapUnit.reset, tx := Scheduler.reset,
    rx := Receiver.reset, events := EventQueue.reset, host := HostPort.reset 0, counters := Counters.zero,
    due := [], schedulerBegun := false, choices := 0, pending := [] }

end Sys2Proof.Machine
end

