-- ==== Sys2Proof/Machine/Bits.lean ====
section
/-! DEFINITION. Bit fields, byte order, sets of nodes and the small counting functions the manual uses throughout. -/
namespace Sys2Proof.Machine

/-- Most significant byte of a 16-bit field: the one sent first (00_scope.md, "Conventions"). -/
def hiByte (h : Half) : Byte := h.extractLsb' 8 8

/-- Least significant byte of a 16-bit field. -/
def loByte (h : Half) : Byte := h.extractLsb' 0 8

/-- A 16-bit field as the two bytes sent, most significant first. -/
def halfBytes (h : Half) : List Byte := [hiByte h, loByte h]

/-- A 16-bit field from its two bytes, most significant first. -/
def halfOf (hi lo : Byte) : Half := hi ++ lo

/-- A count as a byte. -/
def byteOf (n : Nat) : Byte := BitVec.ofNat 8 n

/-- A byte with bit `k` standing for `b` and no other bit set. -/
def flagBit (b : Bool) (k : Nat) : Byte := if b then 1#8 <<< k else 0

/-- High nibble of a byte. -/
def hiNibble (b : Byte) : Nibble := b.extractLsb' 4 4

/-- Low nibble of a byte. -/
def loNibble (b : Byte) : Nibble := b.extractLsb' 0 4

/-- Nibbles packed two to a byte, the earlier in the high nibble; a last odd nibble is followed by 0 (control payload bytes
7 to 14, R149). -/
def packNibbles : List Nibble → List Byte
  | [] => []
  | [a] => [a ++ (0 : Nibble)]
  | a :: b :: rest => (a ++ b) :: packNibbles rest

/-- The node that a number names, if it is 0 to 11. -/
def nodeOf? (n : Nat) : Option Node := if h : n < 12 then some ⟨n, h⟩ else none

/-- A node as a nibble of a cell. -/
def nodeNibble (n : Node) : Nibble := BitVec.ofNat 4 n.val

/-- A node as a byte of a reply. -/
def nodeByte (n : Node) : Byte := BitVec.ofNat 8 n.val

/-- The nodes 0 to 11 in order. -/
def allNodes : List Node := [0, 1, 2, 3, 4, 5, 6, 7, 8, 9, 10, 11]

/-- Whether a set holds a node. -/
def hasNode (set : NodeSet) (n : Node) : Bool := set.getLsbD n.val

/-- The set that holds one node. -/
def onlyNode (n : Node) : NodeSet := 1#12 <<< n.val

/-- Whether two sets have a node in common. -/
def meets (a b : NodeSet) : Bool := a &&& b != 0

/-- The nodes of `a` that are not in `b`. -/
def without (a b : NodeSet) : NodeSet := a &&& ~~~b

/-- A set as the 16-bit field of a cell or a reply: bits 15 to 12 are 0 (00_scope.md, "Conventions"). -/
def setField (set : NodeSet) : Half := (0 : Nibble) ++ set

/-- The map code of an owner: 15 for no owner (R34). -/
def ownerNibble : Owner → Nibble
  | none => 15
  | some n => nodeNibble n

/-- The owner that a map code stands for.  Codes 12 to 14 never stand in a held map (R34); they are refused before this
is read. -/
def ownerOf (code : Nibble) : Owner := nodeOf? code.toNat

/-- Whether a map code is 12, 13 or 14 (R36, R44). -/
def invalidOwner (code : Nat) : Bool := 12 ≤ code && code ≤ 14

/-- The node that owns a slot by a list of owners; slot 0 is not stored with the map (R34). -/
def ownerAt (owners : SlotOwners) (slot : Slot) : Owner :=
  if slot.val = 0 then none else owners.toList.getD (slot.val - 1) none

/-- A 16-bit counter goes up by 1 and stays at 65535 (R166). -/
def bump (c : Half) : Half := if c = 0xFFFF then c else c + 1

/-- The loss counts go up by 1 and stay at 255 (R105, R121). -/
def bumpByte (c : Byte) : Byte := if c = 0xFF then c else c + 1

/-- Pool blocks that a payload of a length takes: the length divided by 16, rounded up (R56, R101). -/
def blocksFor (length : Nat) : Nat := (length + 15) / 16

/-- Cells of a message of a length: 1 for length 0 (R20). -/
def cellCount (length : Nat) : Nat := if length = 0 then 1 else blocksFor length

/-- Bytes of a message of length `total` that its cell of index `k` carries (R20, R106). -/
def cellShare (total k : Nat) : Nat := min 16 (total - 16 * k)

end Sys2Proof.Machine
end

