-- ==== Sys2Proof/Machine/Crc.lean ====
section
/-! DEFINITION. The CRC-16 of cells and of host line frames (R23, R129, R130). -/
namespace Sys2Proof.Machine

/-- One bit through the register: polynomial 0x1021, most significant bit first (R23). -/
def crcBit (reg : Half) (bit : Bool) : Half :=
  if reg.getLsbD 15 != bit then (reg <<< 1) ^^^ 0x1021 else reg <<< 1

/-- One byte through the register, bit 7 first (R23). -/
def crcByte (reg : Half) (b : Byte) : Half :=
  [7, 6, 5, 4, 3, 2, 1, 0].foldl (fun r k => crcBit r (b.getLsbD k)) reg

/-- The CRC of a run of bytes: the register starts at 0xFFFF, no reversal and no final inversion (R23). -/
def crc16 (bytes : List Byte) : Half := bytes.foldl crcByte 0xFFFF

/-- Bytes followed by their CRC, high byte first (R23, R129, R130). -/
def withCrc (bytes : List Byte) : List Byte := bytes ++ halfBytes (crc16 bytes)

end Sys2Proof.Machine
end

