-- ==== Sys2Proof/Machine/Cells.lean ====
section
/-! DEFINITION. The cell on the link and the control payload: the fields, how a cell is composed into thirty bytes and how a
sampled image is read (02_cells_on_the_link.md, "Cell layout"). -/
namespace Sys2Proof.Machine

/-- The fields of a cell, as the cell layout table gives them; the CRC is not held. -/
structure Cell where
  kind : Nibble
  source : Nibble
  epoch : Byte
  first : Bool
  last : Bool
  ackreq : Bool
  index : BitVec 3
  number : Nibble
  total : Byte
  dest : Half
  tag : Byte
  ackValid : Bool
  ackTarget : Nibble
  ackNumber : Nibble
  ackEpoch : Byte
  count : Byte
  /-- the 16 bytes of the payload field -/
  payload : List Byte
deriving DecidableEq, Repr

/-- Kind nibble of a FILLER cell. -/
def kindFiller : Nibble := 1
/-- Kind nibble of a DATA cell. -/
def kindData : Nibble := 2
/-- Kind nibble of a CONTROL cell. -/
def kindControl : Nibble := 3

/-- Payload bytes in a 16-byte field, the unused ones 0 (R20). -/
def padPayload (bytes : List Byte) : List Byte := (bytes ++ List.replicate 16 0).take 16

/-- Bytes 0 to 27 of a cell: the bits marked "sent as 0" are 0. -/
def cellBody (c : Cell) : List Byte :=
  [ c.kind ++ c.source,
    c.epoch,
    flagBit c.first 7 ||| flagBit c.last 6 ||| flagBit c.ackreq 5 ||| c.index.setWidth 8,
    (0 : Nibble) ++ c.number,
    c.total,
    hiByte c.dest, loByte c.dest,
    c.tag,
    flagBit c.ackValid 7 ||| c.ackTarget.setWidth 8,
    (0 : Nibble) ++ c.ackNumber,
    c.ackEpoch,
    c.count ] ++ padPayload c.payload

/-- The thirty bytes of a cell (R23). -/
def encodeCell (c : Cell) : List Byte := withCrc (cellBody c)

/-- Byte `i` of a sampled image.  A bit time in which LDAT is released reads as 1 (R3), so a byte that no station drove reads
0xFF. -/
def imageByte (image : List Byte) (i : Nat) : Byte := image.getD i 0xFF

/-- The fields of a sampled image; the bits marked "sent as 0" are ignored, but for those of the destination set (R26). -/
def readCell (image : List Byte) : Cell :=
  let b := imageByte image
  { kind := hiNibble (b 0), source := loNibble (b 0), epoch := b 1,
    first := (b 2).getLsbD 7, last := (b 2).getLsbD 6, ackreq := (b 2).getLsbD 5, index := (b 2).extractLsb' 0 3,
    number := loNibble (b 3), total := b 4, dest := halfOf (b 5) (b 6), tag := b 7,
    ackValid := (b 8).getLsbD 7, ackTarget := loNibble (b 8), ackNumber := loNibble (b 9), ackEpoch := b 10,
    count := b 11,
    payload := [b 12, b 13, b 14, b 15, b 16, b 17, b 18, b 19, b 20, b 21, b 22, b 23, b 24, b 25, b 26, b 27] }

/-- Bytes 0 to 27 of a sampled image: what its CRC covers (R23). -/
def imageBody (image : List Byte) : List Byte :=
  let b := imageByte image
  [b 0, b 1, b 2, b 3, b 4, b 5, b 6, b 7, b 8, b 9, b 10, b 11, b 12, b 13, b 14, b 15, b 16, b 17, b 18, b 19, b 20,
   b 21, b 22, b 23, b 24, b 25, b 26, b 27]

/-- Bytes 28 and 29 of a sampled image. -/
def imageCrc (image : List Byte) : Half := halfOf (imageByte image 28) (imageByte image 29)

/-- An image whose byte 0 is 0xFF is an empty slot (R25). -/
def isEmptySlot (image : List Byte) : Bool := imageByte image 0 == 0xFF

/-- The checks of R26 on an image received in a slot by a part of node `own`. -/
def validImage (own : Option Node) (slot : Slot) (image : List Byte) : Bool :=
  let c := readCell image
  crc16 (imageBody image) == imageCrc image
    && (c.kind == kindFiller || c.kind == kindData || c.kind == kindControl)
    && (nodeOf? c.source.toNat).isSome && nodeOf? c.source.toNat != own
    && c.epoch != 0
    && ((c.kind == kindControl) == (slot.val == 0))
    && c.count.toNat ≤ 16
    && c.total.toNat ≤ 128
    && (c.first == (c.index == 0))
    && (c.last == (c.index.toNat + 1 == cellCount c.total.toNat))
    && hiNibble (hiByte c.dest) == 0

/-- A destination set as a valid cell carries it (R20). -/
def Cell.destSet (c : Cell) : NodeSet := c.dest.extractLsb' 0 12

/-! ## The control payload (02_cells_on_the_link.md, second table) -/

/-- The fields of the control cell's 16 payload bytes. -/
structure ControlContent where
  frame : Half
  current : Byte
  /-- the map carried is the PENDING map -/
  carriesPending : Bool
  pendingExists : Bool
  effective : Half
  generation : Byte
  /-- owner codes of slots 1 to 15 -/
  owners : List Nibble
  rate : Byte
deriving DecidableEq, Repr

/-- The 16 payload bytes of a control cell (R42). -/
def encodeContent (c : ControlContent) : List Byte :=
  halfBytes c.frame ++ [c.current, flagBit c.carriesPending 0 ||| flagBit c.pendingExists 1] ++ halfBytes c.effective
    ++ [c.generation] ++ packNibbles c.owners ++ [c.rate]

/-- The control content of a payload field. -/
def readContent (payload : List Byte) : ControlContent :=
  let b := fun i => payload.getD i 0
  { frame := halfOf (b 0) (b 1), current := b 2, carriesPending := (b 3).getLsbD 0, pendingExists := (b 3).getLsbD 1,
    effective := halfOf (b 4) (b 5), generation := b 6,
    owners := [hiNibble (b 7), loNibble (b 7), hiNibble (b 8), loNibble (b 8), hiNibble (b 9), loNibble (b 9),
      hiNibble (b 10), loNibble (b 10), hiNibble (b 11), loNibble (b 11), hiNibble (b 12), loNibble (b 12),
      hiNibble (b 13), loNibble (b 13), hiNibble (b 14)],
    rate := b 15 }

/-- The owners that fifteen owner codes stand for. -/
def ownersOf (codes : List Nibble) : SlotOwners := Vector.ofFn fun i => ownerOf (codes.getD i.val 15)

/-- Whether `later` is 1 to 255 frames after `now`, modulo 65536 (R44, R45). -/
def framesAhead (later now : Half) : Bool := 1 ≤ (later - now).toNat && (later - now).toNat ≤ 255

/-- The map content is usable: none of the six conditions of R44 holds. -/
def usableContent (c : ControlContent) : Bool :=
  !(c.owners.any fun n => invalidOwner n.toNat)
    && c.rate.toNat ≤ 3
    && !(c.carriesPending && !c.pendingExists)
    && (c.carriesPending || c.generation == c.current)
    && (!c.carriesPending || c.generation == c.current + 1)
    && (!c.pendingExists || framesAhead c.effective c.frame)

end Sys2Proof.Machine
end

