-- ==== Sys2Proof/Machine/Ops.lean ====
section
/-! DEFINITION. The named operations over the state that several commands share: placing events and results, finding and
changing outbound records, the owed-acknowledgement list and the reassembly contexts. -/
namespace Sys2Proof.Machine

/-! ## The Event Queue -/

/-- Whether an event is of the result kind (R117). -/
def EventKind.isResult : EventKind → Bool
  | .result .. => true
  | _ => false

/-- A record at the tail of the event queue with the pending lost count as its lost_before, the Link Timing Unit's frame
number, and the pending lost count set to 0 (R117, R120, R121). -/
def pushEvent (kind : EventKind) (s : State) : State :=
  { s with
    events.records := s.events.records ++ [{ kind := kind, lostBefore := s.events.pendingLost, frame := s.link.frame }]
    events.pendingLost := 0 }

/-- A non-result event is offered: placed while fewer than 16 are held, else dropped and counted (R121). -/
def offerEvent (kind : EventKind) (s : State) : State :=
  if s.events.nonResultCount < Config.nonResultPlaces then
    { pushEvent kind s with events.nonResultCount := s.events.nonResultCount + 1 }
  else
    { s with counters.eventsLost := bump s.counters.eventsLost, events.pendingLost := bumpByte s.events.pendingLost }

/-! ## Outbound records -/

/-- Whether a record is in a state in which it holds its destinations against other acknowledged records (R60, R83). -/
def Record.inFlight (r : Record) : Bool :=
  r.state == .sending || r.state == .awaiting || r.state == .retry

/-- Outbound pool blocks of a record (R56). -/
def Record.blocks (r : Record) : Nat := blocksFor r.payload.length

/-- The acknowledged set of a record: its destination set less its pending set, and empty for an unacknowledged record (R73,
R152). -/
def Record.acked (r : Record) : NodeSet := if r.ackreq then without r.dest r.pendingSet else 0

/-- The record that holds a ticket (R55). -/
def findRecord (ticket : Ticket) (s : State) : Option Record := s.tx.records.find? fun r => r.ticket == ticket

/-- The record that is SENDING; law 5 allows one at most (R64). -/
def sendingRecord (s : State) : Option Record := s.tx.records.find? fun r => r.state == .sending

/-- The record that holds a ticket is changed in its place (R55). -/
def putRecord (r : Record) (s : State) : State :=
  { s with tx.records := s.tx.records.map fun q => if q.ticket == r.ticket then r else q }

/-- The result event of a record (R73, R117). -/
def Record.result (r : Record) (outcome : ResultOutcome) : EventKind :=
  .result r.ticket outcome r.attempts r.dest r.acked

/-- A record produces its result: the result is placed in the place held for it, and in the same step the record is removed and
its blocks return to the pool (R73, R120).  `r` is the record with the values its result carries. -/
def finishRecord (r : Record) (outcome : ResultOutcome) (s : State) : State :=
  let s := pushEvent (r.result outcome) s
  { s with
    tx.records := s.tx.records.filter fun q => q.ticket != r.ticket
    tx.retryOrder := s.tx.retryOrder.filter fun t => t != r.ticket
    tx.freeBlocks := s.tx.freeBlocks + r.blocks }

/-! ## The owed-acknowledgement list -/

/-- An acknowledgement is owed to a source: any entry for that source is removed, and the new one joins the tail (R81). -/
def oweAck (source : Node) (number : Nibble) (s : State) : State :=
  let epoch := (s.rx.peers.get source).epoch.getD 0
  { s with rx.owed :=
      (s.rx.owed.filter fun o => o.source != source) ++ [{ source := source, number := number, epoch := epoch }] }

/-! ## Reassembly contexts -/

/-- Inbound blocks that a context holds (R101). -/
def Context.blocks : Context → Nat
  | .assembling a => blocksFor a.total
  | .idle => 0
  | .discarding _ => 0

/-- Whether a context is ASSEMBLING (R104). -/
def Context.isAssembling : Context → Bool
  | .assembling _ => true
  | .idle => false
  | .discarding _ => false

/-- Whether a context is IDLE (R99). -/
def Context.isIdle : Context → Bool
  | .idle => true
  | .assembling _ => false
  | .discarding _ => false

/-- Inbound blocks that a mailbox entry holds (R101). -/
def Entry.blocks (e : Entry) : Nat := blocksFor e.payload.length

/-- The number of ASSEMBLING contexts (R104, R143). -/
def assemblingCount (s : State) : Nat := s.rx.contexts.toList.countP Context.isAssembling

/-- The context of a source is replaced (R99). -/
def setContext (source : Node) (c : Context) (s : State) : State :=
  { s with rx.contexts := s.rx.contexts.set source.val c }

/-- To abandon a context: back to IDLE, the blocks of an ASSEMBLING context to the pool (R100). -/
def abandonContext (source : Node) (s : State) : State :=
  let c := s.rx.contexts.get source
  { setContext source .idle s with rx.freeBlocks := s.rx.freeBlocks + c.blocks }

/-- One reassembly break is counted (R100). -/
def countBreak (s : State) : State := { s with counters.breaks := bump s.counters.breaks }

end Sys2Proof.Machine
end

