-- ==== Sys2Proof/Machine/Delivery.lean ====
section
/-! DEFINITION. What happens to outbound records once they have begun: the end of a pass, acknowledgement notices, the running
out of timers and lifetimes, and the cutting of a pass (04_the_outbound_queue.md, 05_acknowledged_delivery.md). -/
namespace Sys2Proof.Machine

/-! ## The end of a pass -/

/-- The pass of a record has ended (R69, R86): an unacknowledged record produces SENT; an acknowledged one DELIVERED with no
node pending, CANCELLED with cancel-requested set, and otherwise enters AWAITING with the ack timer at W. -/
def endPass (r : Record) (s : State) : State :=
  let r := { r with pass := none }
  if !r.ackreq then finishRecord r .sent s
  else if r.pendingSet = 0 then finishRecord r .delivered s
  else if r.cancelRequested then finishRecord r .cancelled s
  else putRecord { r with state := .awaiting, ackTimer := s.station.config.ackWait } s

/-- The cell being driven ends at bit time 240 with the line released; if it was the last of a pass, the pass ends (R3, R69). -/
def endCell (s : State) : State :=
  match s.tx.cell with
  | none => s
  | some c =>
    let s := { s with tx.cell := none }
    match c.endsPassOf with
    | none => s
    | some t =>
      match findRecord t s with
      | none => s
      | some r => endPass r s

/-! ## Acknowledgement notices -/

/-- Whether a notice (S, n) matches a record (R83). -/
def Record.matchesNotice (source : Node) (n : Nibble) (r : Record) : Bool :=
  r.ackreq && r.inFlight && r.number == some n && hasNode r.pendingSet source

/-- The open-number set of a node (R67). -/
def openSet (n : Node) (s : State) : NumberSet := s.tx.openSets.get n

/-- The set that holds one message number. -/
def onlyNumber (n : Nibble) : NumberSet := 1#16 <<< n.toNat

/-- An acknowledgement notice (S, n) reaches the Transmit Scheduler (R83, R85): a matching record loses S from its pending set
and ends DELIVERED when that empties it in AWAITING or RETRY; S's open-number set becomes n alone (R67); a notice that matches
nothing is counted as stale. -/
def applyNotice (source : Node) (n : Nibble) (s : State) : State :=
  match s.tx.records.find? (Record.matchesNotice source n) with
  | none => { s with counters.staleAcks := bump s.counters.staleAcks }
  | some r =>
    let s := { s with tx.openSets := s.tx.openSets.set source.val (onlyNumber n) }
    let r := { r with pendingSet := without r.pendingSet (onlyNode source) }
    if r.pendingSet = 0 ∧ r.state ≠ .sending then finishRecord r .delivered s else putRecord r s

/-! ## Lifetimes and ack timers -/

/-- The lifetime of a record reached 0 at the boundary: it produces EXPIRED (R71). -/
def expireRecord (ticket : Ticket) (s : State) : State :=
  match findRecord ticket s with
  | none => s
  | some r => if r.state = .queued then finishRecord r .expired s else s

/-- The ack timer of a record ran out at the boundary: RETRY behind every record already there while its attempts are within
the retry limit, and else FAILED with the whole destination set pending, PARTIAL otherwise (R87). -/
def judgeTimer (ticket : Ticket) (s : State) : State :=
  match findRecord ticket s with
  | none => s
  | some r =>
    if r.state ≠ .awaiting then s
    else if r.attempts ≤ s.station.config.retryLimit then
      { putRecord { r with state := .retry, ackTimer := 0 } s with tx.retryOrder := s.tx.retryOrder ++ [ticket] }
    else finishRecord r (if r.pendingSet = r.dest then .failed else .partly) s

/-! ## Cutting a pass -/

/-- A number leaves the open-number set of every node of a set (R67, R96). -/
def closeNumber (n : Nibble) (set : NodeSet) (s : State) : State :=
  { s with tx.openSets := Vector.ofFn fun i =>
      if hasNode set i then openSet i s &&& ~~~(onlyNumber n) else openSet i s }

/-- A lock loss cuts a first pass (R96). -/
def cutFirstPass (r : Record) (s : State) : State :=
  let s := match r.number with
    | none => s
    | some n => closeNumber n r.dest s
  let r := { r with pass := none, attempts := r.attempts - 1 }
  if r.cancelRequested then finishRecord r .cancelled s
  else putRecord { r with state := .queued, number := none, cancelRequested := false } s

/-- A lock loss cuts a retransmission pass (R97). -/
def cutRetransmission (r : Record) (s : State) : State :=
  let r := { r with pass := none, attempts := r.attempts - 1 }
  if r.pendingSet = 0 then finishRecord r .delivered s
  else if r.cancelRequested then finishRecord r .cancelled s
  else
    let s := putRecord { r with state := .retry, ackTimer := 0, cancelRequested := false } s
    { s with tx.retryOrder := r.ticket :: s.tx.retryOrder }

/-- Whether the pass of a SENDING record is a retransmission (R64). -/
def Record.retransmitting (r : Record) : Bool := (r.pass.map fun p => p.kind) == some .retransmission

/-- The Transmit Scheduler is told of a lock loss: the pass in progress is cut, if there is one (R13, R96, R97). -/
def cutPass (s : State) : State :=
  match sendingRecord s with
  | none => s
  | some r => if r.retransmitting then cutRetransmission r s else cutFirstPass r s

/-- Whether the cut of the pass in progress produces a result (R96, R97). -/
def cutPlacesResult (s : State) : Bool :=
  match sendingRecord s with
  | none => false
  | some r => r.cancelRequested || (r.retransmitting && r.pendingSet == 0)

/-! ## Cancelling -/

/-- CANCEL of a record (R93, R94): the reply and the state. -/
def cancelRecord (r : Record) (s : State) : Status × State :=
  if r.state = .sending then (.cancelPending, putRecord { r with cancelRequested := true } s)
  else (.ok, finishRecord r .cancelled s)

end Sys2Proof.Machine
end

