-- ==== Sys2Proof/Machine/MapUnit.lean ====
section
/-! DEFINITION. The Map Unit: who owns a slot, the control content a master composes, and how a member follows control cells
(03_the_slot_map.md). -/
namespace Sys2Proof.Machine

/-- The owner of a slot as the Map Unit answers it: slot 0 belongs to the master node, and a member without an active map
answers no owner for every slot (R34). -/
def slotOwner (slot : Slot) (s : State) : Owner :=
  match s.map.active with
  | none => none
  | some m => if slot.val = 0 then s.map.masterNode else ownerAt m.owners slot

/-- The owned slot count: the slots 1 to 15 that the active map gives to this part's node (R34). -/
def ownedSlotCount (s : State) : Nat :=
  match s.map.active, s.station.config.node with
  | some m, some n => m.owners.toList.countP fun o => o == some n
  | _, _ => 0

/-- The active generation, or none (R35). -/
def activeGeneration (s : State) : Option Byte := s.map.active.map fun m => m.generation

/-- The frame generation takes the active generation (R35). -/
def setFrameGeneration (s : State) : State := { s with map.frameGeneration := activeGeneration s }

/-- Owner codes of slots 1 to 15 (R42). -/
def ownerNibbles (o : SlotOwners) : List Nibble := o.toList.map ownerNibble

/-- The control content of the frame whose number the Link Timing Unit holds (R42). -/
def controlContent (s : State) : ControlContent :=
  let active := s.map.active.getD { owners := SlotOwners.noOwner, generation := 0 }
  let carried : Bool × SlotMap :=
    match s.map.pendingMap with
    | none => (false, active)
    | some p => if s.link.frame.getLsbD 0 then (true, p.map) else (false, active)
  { frame := s.link.frame
    current := active.generation
    carriesPending := carried.1
    pendingExists := s.map.pendingMap.isSome
    effective := (s.map.pendingMap.map fun p => p.effective).getD 0
    generation := carried.2.generation
    owners := ownerNibbles carried.2.owners
    rate := s.station.config.rateCode.setWidth 8 }

/-- What the Map Unit does at an announced boundary after its switch work: it sets the frame generation, and on a master it
composes the control content of the frame (R35, R41, R42). -/
def closeMapWork (s : State) : State :=
  let s := setFrameGeneration s
  if s.station.config.role = .master then { s with map.content := some (encodeContent (controlContent s)) } else s

/-- The switch at the boundary that begins the effective frame (R41, R48), and the rest of the Map Unit's boundary work. -/
def switchMap (s : State) : State :=
  match s.map.pendingMap with
  | none => closeMapWork s
  | some p =>
    let s := { s with map.active := some p.map, map.pendingMap := none }
    let s := if s.station.config.role = .master then { s with map.outcome := .applied } else s
    closeMapWork (offerEvent (.mapApplied p.map.generation p.effective) s)

/-! ## Following the map on a member -/

/-- Whether a member's pending map is no longer wanted (R45). -/
def dropsPending (c : ControlContent) (p : PendingMap) : Bool :=
  !c.pendingExists || c.effective != p.effective || !framesAhead p.effective c.frame

/-- A member removes a pending map that the control content no longer announces (R45). -/
def dropPending (c : ControlContent) (s : State) : State :=
  match s.map.pendingMap with
  | none => s
  | some p => if dropsPending c p then { s with map.pendingMap := none } else s

/-- A member adopts a carried current map whose generation is not its own (R46). -/
def adoptMap (c : ControlContent) (s : State) : State :=
  if activeGeneration s = some c.generation then s
  else
    let old := activeGeneration s
    offerEvent (.mapResync old c.generation)
      { s with map.active := some { owners := ownersOf c.owners, generation := c.generation } }

/-- A member stores a carried pending map (R47). -/
def storePending (c : ControlContent) (s : State) : State :=
  { s with
    map.pendingMap :=
      some { map := { owners := ownersOf c.owners, generation := c.generation }, effective := c.effective } }

/-- A member's Map Unit handles the control content of a valid control cell: it learns the master, judges the content, drops,
adopts or stores, and keeps the rate code (R44 to R47). -/
def followMap (source : Node) (c : ControlContent) (s : State) : State :=
  let s := { s with map.masterNode := some source }
  if usableContent c then
    let s := dropPending c s
    let s := if c.carriesPending then storePending c s else adoptMap c s
    { s with map.masterRate := some (c.rate.setWidth 2) }
  else s

/-! ## Values after configuration and detach -/

/-- The Map Unit is given a station configuration (R51). -/
def configuredMap (c : Configuration) : MapUnit :=
  match c.role with
  | .master =>
    { MapUnit.reset with
      active := some { owners := SlotOwners.noOwner, generation := 0 }
      frameGeneration := some 0
      masterNode := c.node
      masterRate := some c.rateCode }
  | .member => MapUnit.reset

/-- The Map Unit at the completion of a detach (R53). -/
def detachedMap (role : Role) (m : MapUnit) : MapUnit :=
  let m := if m.pendingMap.isSome then { m with pendingMap := none, outcome := .nothing } else m
  match role with
  | .master => { m with frameGeneration := m.active.map fun a => a.generation }
  | .member => { m with active := none, frameGeneration := none, masterNode := none, masterRate := none }

end Sys2Proof.Machine
end

