-- ==== Sys2Proof/Machine/Reassembly.lean ====
section
/-! DEFINITION. The Receive Unit's data path: from a DATA cell handed to a reassembly context to an entry of the mailbox
(05_acknowledged_delivery.md, 06_reassembly_and_the_inbound_mailbox.md). -/
namespace Sys2Proof.Machine

/-- A context goes DISCARDING with a cell just handled, or back to IDLE if that cell was the LAST (R102, R108). -/
def discardContext (source : Node) (last : Bool) (s : State) : State :=
  setContext source (if last then .idle else .discarding 0) s

/-- The completion of a message: the context becomes a mailbox entry, the unacknowledged-loss count rides into it, and an
acknowledged message is recorded and owed (R109, R80). -/
def completeMessage (source : Node) (a : Assembly) (s : State) : State :=
  let s := setContext source .idle s
  let s := { s with
    rx.mailbox := s.rx.mailbox ++ [{ source := source, tag := a.tag, payload := a.bytes, ackreq := a.ackreq,
                                     lostBefore := s.rx.lossCount, frame := s.link.frame }]
    rx.lossCount := 0 }
  if a.ackreq then
    oweAck source a.number
      { s with rx.peers := s.rx.peers.set source.val { s.rx.peers.get source with lastAccepted := some a.number } }
  else s

/-- The bytes that a cell of index `k` contributes to a message (R106). -/
def cellBytesOf (c : Cell) (k : Nat) : List Byte := c.payload.take (cellShare c.total.toNat k)

/-- Whether a new message finds a mailbox place and its blocks (R104). -/
def hasRoom (total : Nat) (s : State) : Bool :=
  s.rx.mailbox.length + assemblingCount s < Config.mailboxPlaces && blocksFor total ≤ s.rx.freeBlocks

/-- A new message is admitted or refused at its FIRST cell (R104, R105).  The context is IDLE when this is reached. -/
def newMessage (source : Node) (c : Cell) (s : State) : State :=
  if hasRoom c.total.toNat s then
    let a : Assembly := { nextIndex := 1, total := c.total.toNat, bytes := cellBytesOf c 0, tag := c.tag,
                          ackreq := c.ackreq, number := c.number, frames := 0 }
    let s := { s with rx.freeBlocks := s.rx.freeBlocks - blocksFor c.total.toNat }
    if c.last then completeMessage source a s else setContext source (.assembling a) s
  else
    let s := { s with counters.noRoom := bump s.counters.noRoom }
    let s := if c.ackreq then s else { s with rx.lossCount := bumpByte s.rx.lossCount }
    discardContext source c.last s

/-- Whether a FIRST cell is a duplicate: ACKREQ set and its number the last accepted from the source (R79). -/
def isDuplicate (source : Node) (c : Cell) (s : State) : Bool :=
  c.ackreq && (s.rx.peers.get source).lastAccepted == some c.number

/-- A FIRST cell reaches its context (R103): a message in progress is broken off, a duplicate is counted and acknowledged
again, and anything else is a new message. -/
def firstCell (source : Node) (c : Cell) (s : State) : State :=
  let s := if (s.rx.contexts.get source).isIdle then s else countBreak (abandonContext source s)
  if isDuplicate source c s then
    discardContext source c.last
      (oweAck source c.number { s with counters.duplicates := bump s.counters.duplicates })
  else newMessage source c s

/-- Whether a later cell belongs next to what a context has assembled (R107). -/
def Assembly.accepts (a : Assembly) (c : Cell) : Bool :=
  c.index.toNat == a.nextIndex && c.total.toNat == a.total && c.ackreq == a.ackreq && c.number == a.number
    && c.tag == a.tag

/-- A later cell reaches its context (R107, R108). -/
def laterCell (source : Node) (c : Cell) (s : State) : State :=
  match s.rx.contexts.get source with
  | .idle => countBreak s
  | .discarding _ => discardContext source c.last s
  | .assembling a =>
    if a.accepts c then
      let a := { a with bytes := a.bytes ++ cellBytesOf c a.nextIndex, nextIndex := a.nextIndex + 1, frames := 0 }
      if c.last then completeMessage source a s else setContext source (.assembling a) s
    else countBreak (abandonContext source s)

/-- The data step of the hand-off (R32, R102). -/
def dataStep (source : Node) (c : Cell) (s : State) : State :=
  if c.first then firstCell source c s else laterCell source c s

/-- One boundary without a cell for a context (R110). -/
def Context.tick : Context → Context
  | .idle => .idle
  | .discarding frames => .discarding (frames + 1)
  | .assembling a => .assembling { a with frames := a.frames + 1 }

/-- Whether the frames since the last cell of a context have reached 16 (R110). -/
def Context.timedOut : Context → Bool
  | .idle => false
  | .discarding frames => Config.reassemblyFrames ≤ frames
  | .assembling a => Config.reassemblyFrames ≤ a.frames

/-- A context without a cell for 16 boundaries is abandoned; an ASSEMBLING one is counted as a break (R110). -/
def timeOutContext (source : Node) (s : State) : State :=
  let c := s.rx.contexts.get source
  if c.timedOut then
    let s := abandonContext source s
    if c.isAssembling then countBreak s else s
  else s

/-- The epoch step of the hand-off (R78). -/
def epochStep (source : Node) (epoch : Byte) (s : State) : State :=
  let old := (s.rx.peers.get source).epoch
  if old = some epoch then s
  else
    let s := { s with
      rx.peers := s.rx.peers.set source.val { epoch := some epoch, lastAccepted := none }
      rx.owed := s.rx.owed.filter fun o => o.source != source }
    let s := abandonContext source s
    match old with
    | none => s
    | some e => offerEvent (.peerEpoch source e epoch) s

end Sys2Proof.Machine
end

