-- ==== Sys2Proof/Machine/Boundary.lean ====
section
/-! DEFINITION. Frame boundaries: what an announced boundary leaves each block to do, how that work is done, and the completion
of a detach (R15, R162, R163). -/
namespace Sys2Proof.Machine

/-! ## The completion of a detach -/

/-- Every outbound record, in order of acceptance, produces FLUSHED in the place held for it (R75, R162 stage 1). -/
def flushRecords (s : State) : State :=
  let t := s.tx.records.foldl (fun t r => pushEvent (r.result .flushed) t) s
  { t with
    tx.records := []
    tx.retryOrder := []
    tx.freeBlocks := s.tx.freeBlocks + (s.tx.records.map Record.blocks).sum }

/-- Every reassembly context is abandoned and no break is counted (R115). -/
def abandonAll (s : State) : State :=
  { s with
    rx.freeBlocks := s.rx.freeBlocks + (s.rx.contexts.toList.map Context.blocks).sum
    rx.contexts := Vector.replicate 12 .idle }

/-- The Link Timing Unit goes to OFF and releases the lines; the frame number is kept (R19). -/
def linkOff (l : LinkTiming) : LinkTiming := { LinkTiming.reset with frame := l.frame }

/-- Stage 2 of a completion: owed acknowledgements, contexts, maps, control record, link (R162). -/
def clearForDetach (s : State) : State :=
  let s := abandonAll s
  { s with
    rx.owed := []
    rx.controlRecord := none
    rx.receiving := none
    tx.cell := none
    map := detachedMap s.station.config.role s.map
    link := linkOff s.link }

/-- The completion of a detach, its four stages in order (R162).  Boundary work that has not been done finds nothing left to
act on (R163). -/
def completeDetach (s : State) : State :=
  let flushed := s.tx.records.length
  let s := clearForDetach (flushRecords s)
  let s := offerEvent (.detached flushed) s
  { s with station.state := .detached, due := [], schedulerBegun := false }

/-! ## Announcing a boundary -/

/-- Whether the lifetime of a record runs out at a boundary (R71). -/
def Record.lifetimeEnds (r : Record) : Bool := r.state == .queued && r.lifetime == 1

/-- Whether the ack timer of a record runs out at a boundary (R87). -/
def Record.timerEnds (r : Record) : Bool := r.state == .awaiting && r.ackTimer ≤ 1

/-- A record across a boundary: a QUEUED lifetime that is not 0 and an AWAITING ack timer go down by 1 (R71, R87).  One that reaches
0 there does so in its LIFETIME_EXPIRY or ACK_TIMER_EXPIRY. -/
def Record.tick (r : Record) : Record :=
  match r.state with
  | .queued => if r.lifetime = 0 ∨ r.lifetimeEnds then r else { r with lifetime := r.lifetime - 1 }
  | .awaiting => if r.timerEnds then r else { r with ackTimer := r.ackTimer - 1 }
  | .sending => r
  | .retry => r

/-- The work that a boundary leaves to the Transmit Scheduler: records whose lifetime or ack timer ends there (R71, R87). -/
def schedulerWork (s : State) : List Work :=
  ((s.tx.records.filter Record.lifetimeEnds).map fun r => Work.lifetime r.ticket)
    ++ ((s.tx.records.filter Record.timerEnds).map fun r => Work.ackTimer r.ticket)

/-- The work that a boundary leaves to the Receive Unit: contexts that reach 16 frames without a cell there (R110). -/
def receiverWork (s : State) : List Work :=
  (allNodes.filter fun n => (s.rx.contexts.get n).tick.timedOut).map Work.reassembly

/-- Whether a boundary begins the effective frame of the pending map (R41, R48). -/
def switchesNow (s : State) : Bool :=
  match s.map.pendingMap with
  | none => false
  | some p => p.effective == s.link.frame

/-- A frame boundary is announced to the Transmit Scheduler, the Receive Unit, the Map Unit and Station Control (R15).  The
Link Timing Unit's frame number is already that of the frame the boundary begins.  `begins` is false at the boundary that
completes a master's detach, which begins no frame (R6, R41). -/
def announceBoundary (begins : Bool) (s : State) : State :=
  let switch := begins && switchesNow s
  let work := schedulerWork s ++ receiverWork s ++ (if switch then [Work.mapSwitch] else [])
    ++ (if s.station.state = .detaching then [Work.completion] else [])
  let s := { s with
    tx.records := s.tx.records.map Record.tick
    rx.contexts := Vector.ofFn fun n => (s.rx.contexts.get n).tick
    due := work
    schedulerBegun := false }
  if begins && !switch then closeMapWork s else s

/-! ## Doing the work of a boundary -/

/-- One item of boundary work is done by its block. -/
def doWork (w : Work) (s : State) : State :=
  match w with
  | .lifetime t => expireRecord t s
  | .ackTimer t => judgeTimer t s
  | .reassembly n => timeOutContext n s
  | .mapSwitch => switchMap s
  | .completion => completeDetach s

/-- Work of the Transmit Scheduler (R71, R87). -/
def Work.ofScheduler : Work → Bool
  | .lifetime _ => true
  | .ackTimer _ => true
  | .reassembly _ => false
  | .mapSwitch => false
  | .completion => false

/-- Whether an item is of the Transmit Scheduler's work at a boundary that completes a detach (R163). -/
def beginsScheduler (w : Work) (s : State) : Bool := w.ofScheduler && s.due.contains .completion

/-- An item is taken off the list of outstanding work and done. -/
def takeWork (w : Work) (s : State) : State :=
  doWork w { s with due := s.due.erase w, schedulerBegun := s.schedulerBegun || beginsScheduler w s }

/-- The outstanding work of the Transmit Scheduler. -/
def schedulerLeft (s : State) : List Work := s.due.filter Work.ofScheduler

/-- The outstanding items that may be done next.  Once the Transmit Scheduler has begun its work at a completing boundary, the
completion waits for the rest of it (R163). -/
def workReady (s : State) : List Work :=
  if s.schedulerBegun && !(schedulerLeft s).isEmpty then s.due.filter (· != .completion) else s.due

/-- One of the items that are ready, by the free choice where there is more than one (log entry 3). -/
def drawWork (w : Work) (rest : List Work) (s : State) : Work :=
  if rest.isEmpty then w else (w :: rest).getD (Config.freeChoice s.choices % (rest.length + 1)) w

/-- At most `fuel` outstanding items of those that are ready are done.  Where more than one item is outstanding, the manual gives no
order (R15, R123, R163), and the next is drawn by the free choice (log entry 3). -/
def settleUpTo (ready : State → List Work) : Nat → State → State
  | 0, s => s
  | fuel + 1, s =>
    match ready s with
    | [] => s
    | w :: rest =>
      if s.due.length = 1 then takeWork w s
      else settleUpTo ready fuel (takeWork (drawWork w rest s) { s with choices := s.choices + 1 })

/-- All boundary work that the sender has not commanded is done: it comes before the next event of the link (R63; log entry 2). -/
def settle (s : State) : State := settleUpTo workReady s.due.length s

/-- The Transmit Scheduler's boundary work is done as far as it is outstanding. -/
def finishScheduler (s : State) : State := settleUpTo schedulerLeft s.due.length s

/-- What comes before an item: a completion comes after the whole of the Transmit Scheduler's boundary work or before the whole of it
(R163), so where that work has begun the rest of it is done first (log entry 2). -/
def beforeWork (w : Work) (s : State) : State := if w = .completion ∧ s.schedulerBegun then finishScheduler s else s

/-- A command that names an item of boundary work: it is done if the boundary left it to do, and has no effect otherwise. -/
def commandWork (w : Work) (s : State) : State := if w ∈ s.due then takeWork w (beforeWork w s) else s

end Sys2Proof.Machine
end

