-- ==== Sys2Proof/Machine/BoundaryWork.lean ====
section
/-! DEFINITION. The meanings of the commands that do the blocks' own work at an announced boundary, in the order in which the
sender gives them (R15, R163).  Each has its effect if the boundary left it to do, and none otherwise. -/
namespace Sys2Proof.Machine

/-- LIFETIME_EXPIRY: a QUEUED record whose lifetime reached 0 at the boundary produces EXPIRED (R71). -/
def execLifetimeExpiry (ticket : Ticket) (s : State) : Host.Outcome State Fault Refusal :=
  .next (commandWork (.lifetime ticket) s)

/-- ACK_TIMER_EXPIRY: an AWAITING record whose ack timer reached 0 at the boundary enters RETRY, or ends FAILED or PARTIAL
(R87). -/
def execAckTimerExpiry (ticket : Ticket) (s : State) : Host.Outcome State Fault Refusal :=
  .next (commandWork (.ackTimer ticket) s)

/-- REASSEMBLY_TIMEOUT: a context without a cell for 16 boundaries is abandoned (R110). -/
def execReassemblyTimeout (source : Node) (s : State) : Host.Outcome State Fault Refusal :=
  .next (commandWork (.reassembly source) s)

/-- MAP_SWITCH: at the boundary that begins the effective frame the pending map becomes active (R41, R48). -/
def execMapSwitch (s : State) : Host.Outcome State Fault Refusal := .next (commandWork .mapSwitch s)

/-- DETACH_COMPLETION: the boundary that ends DETACHING completes the detach (R161, R162), before or after the whole of the Transmit
Scheduler's work there (R163). -/
def execDetachCompletion (s : State) : Host.Outcome State Fault Refusal := .next (commandWork .completion s)

end Sys2Proof.Machine
end

