-- ==== Sys2Proof/Machine/Flags.lean ====
section
/-! DEFINITION. The flag bytes of replies, the codes of named values, ATTN and the other output pins, each computed from the
state that owns it. -/
namespace Sys2Proof.Machine

/-! ## Codes -/

/-- Status codes (R130). -/
def Status.code : Status → Byte
  | .ok => 0x00
  | .empty => 0x01
  | .badLength => 0x02
  | .badParam => 0x03
  | .unknownKind => 0x04
  | .wrongState => 0x05
  | .notMaster => 0x06
  | .queueFull => 0x07
  | .poolFull => 0x08
  | .tooLong => 0x09
  | .noSuchTicket => 0x0A
  | .cancelPending => 0x0B
  | .detachPending => 0x0C
  | .mapPending => 0x0D
  | .tooLate => 0x0E
  | .nothingPending => 0x0F
  | .queueNotEmpty => 0x10

/-- Byte 0 of STATUS (R143). -/
def StationState.code : StationState → Byte
  | .unconfigured => 0
  | .detached => 1
  | .attached => 2
  | .detaching => 3

/-- Byte 1 of STATUS (R143). -/
def Role.code : Role → Byte
  | .member => 0
  | .master => 1

/-- Byte 7 of STATUS (R143). -/
def LockState.code : LockState → Byte
  | .off => 0
  | .driving => 1
  | .search => 2
  | .verify => 3
  | .locked => 4
  | .coast => 5

/-- Byte 33 of MAP_READ (R149). -/
def CommitOutcome.code : CommitOutcome → Byte
  | .nothing => 0
  | .pending => 1
  | .applied => 2
  | .withdrawn => 3

/-- Byte 2 of QUERY_TICKET (R152). -/
def RecordState.code : RecordState → Byte
  | .queued => 1
  | .sending => 2
  | .awaiting => 3
  | .retry => 4

/-- The outcome of a result (R154). -/
def ResultOutcome.code : ResultOutcome → Byte
  | .sent => 1
  | .delivered => 2
  | .partly => 3
  | .failed => 4
  | .expired => 5
  | .cancelled => 6
  | .flushed => 7

/-- The cause of a LINK_DOWN (R154). -/
def LossCause.code : LossCause → Byte
  | .marksMissed => 1
  | .markMisplaced => 2
  | .clockLost => 3

/-- The kind byte of an event (R154). -/
def EventKind.code : EventKind → Byte
  | .result .. => 1
  | .linkUp _ => 2
  | .linkDown _ => 3
  | .mapApplied _ _ => 4
  | .mapResync _ _ => 5
  | .peerEpoch _ _ _ => 6
  | .detached _ => 7

/-! ## Pins -/

/-- ATTN is active while the mailbox or the event queue holds anything, and released during a pin reset (R126). -/
def attnActive (s : State) : Bool :=
  s.phase != .held && (!s.rx.mailbox.isEmpty || !s.events.records.isEmpty)

/-- REFCLK periods per LCK period at a rate code (R1). -/
def lckDivisor (rate : BitVec 2) : Nat := 16 / 2 ^ rate.toNat

/-- The LCK division in force while the part drives LCK and LMK, which only a master in DRIVING does; none while they are
released (R1, R19). -/
def lckDriven (s : State) : Option Nat :=
  if s.link.lock = .driving then some (lckDivisor s.station.config.rateCode) else none

/-- The level a driving master gives LMK at a position: high in bit time 0 of slot 0 only (R3). -/
def lmkHigh (position : Nat) : Bool := position == 0

/-- The level of LMK at a position of the frame while the part drives it; none while it is released (R3, R6, R19). -/
def lmkDriven (s : State) (position : Nat) : Option Bool :=
  if s.link.lock = .driving then some (lmkHigh position) else none

/-- The slot of a position (R2). -/
def slotOfPosition (p : Nat) : Nat := p / Config.periodsPerSlot

/-- The bit time of a position in its slot (R2). -/
def bitTimeOfPosition (p : Nat) : Nat := p % Config.periodsPerSlot

/-- The bit of a cell that a bit time carries: byte b takes bit times 8b to 8b + 7, most significant bit first; the guard
carries none (R2). -/
def cellBitAt (image : List Byte) (bitTime : Nat) : Option Bool :=
  if bitTime < Config.cellBits then some ((imageByte image (bitTime / 8)).getLsbD (7 - bitTime % 8)) else none

/-- Whether the part pulls LDAT low at a bit time of the slot it is sending in: for a 0 bit, and never in the guard (R3). -/
def ldatPulledLow (s : State) (bitTime : Nat) : Bool :=
  match s.tx.cell with
  | none => false
  | some c => cellBitAt c.image bitTime == some false

/-! ## Flag bytes -/

/-- The flags of a reply: REPLAY and OVERRUN (R130, R135). -/
def replyFlags (r : SentReply) : Byte := flagBit r.replay 0 ||| flagBit r.overrun 1

/-- Byte 10 of STATUS (R143). -/
def statusFlags (s : State) : Byte :=
  flagBit s.map.active.isSome 0 ||| flagBit s.map.pendingMap.isSome 1 ||| flagBit s.link.permission 2
    ||| flagBit (attnActive s) 3

/-- Byte 0 of MAP_READ (R149). -/
def mapFlags (s : State) : Byte :=
  flagBit (s.station.config.role == .master) 0 ||| flagBit s.map.active.isSome 1
    ||| flagBit s.map.frameGeneration.isSome 2 ||| flagBit s.map.pendingMap.isSome 3
    ||| flagBit s.map.masterNode.isSome 4 ||| flagBit s.map.masterRate.isSome 5

/-- Byte 3 of QUERY_TICKET (R152). -/
def recordFlags (r : Record) : Byte :=
  flagBit (r.cls == .urgent) 0 ||| flagBit r.ackreq 1 ||| flagBit r.cancelRequested 2 ||| flagBit r.number.isSome 3
    ||| flagBit ((r.pass.map fun p => p.kind) == some .retransmission) 4

/-- Whether an acknowledgement to a node is on the owed-acknowledgement list (R81, R156). -/
def isOwed (n : Node) (s : State) : Bool := s.rx.owed.any fun o => o.source == n

/-- Byte 0 of a node's four in PEER_READ (R156). -/
def peerFlags (n : Node) (s : State) : Byte :=
  flagBit (s.rx.peers.get n).lastAccepted.isSome 0 ||| flagBit (s.tx.sendTable.get n).isSome 1 ||| flagBit (isOwed n s) 2

/-! ## The reply frame -/

/-- The characters of a reply frame on HTX (R130). -/
def replyFrame (r : SentReply) : List Byte :=
  0x3C :: withCrc (byteOf (r.reply.data.length + 4) :: r.reply.kind :: r.reply.seq :: r.reply.status.code :: replyFlags r
    :: r.reply.data)

/-! ## The host line -/

/-- Baud of a strapped rate code (R128). -/
def baudRate : BitVec 2 → Nat
  | 0 => 57600
  | 1 => 115200
  | 2 => 230400
  | 3 => 460800

/-- The ten bit times of a character: a low start bit, eight data bits from bit 0 on, a high stop bit (R128). -/
def characterBits (b : Byte) : List Bool := [false] ++ ([0, 1, 2, 3, 4, 5, 6, 7].map fun k => b.getLsbD k) ++ [true]

/-- The character that ten bit times on HRX carry from the falling edge of its start bit on, and whether it has a character fault:
its stop bit is sampled low (R128). -/
def readCharacter (bits : List Bool) : Byte × Bool :=
  (([1, 2, 3, 4, 5, 6, 7, 8].map fun k => flagBit (bits.getD k true) (k - 1)).foldl (fun a b => a ||| b) 0, !bits.getD 9 true)

/-- The level of HTX a number of bit times after the transmission of the present reply began: the characters of its frame with no idle time
between them, and high after them and while no reply is being sent (R128, R135). -/
def htxHigh (s : State) (bitTime : Nat) : Bool :=
  match s.host.sending with
  | none => true
  | some r => ((replyFrame r).flatMap characterBits).getD bitTime true

end Sys2Proof.Machine
end

