-- ==== Sys2Proof/Machine/Operands.lean ====
section
/-! DEFINITION. How the parameter bytes of each request are read (09_host_requests.md).  A request's parameters are read only
once its length has been found to suit its kind (R140). -/
namespace Sys2Proof.Machine

/-- The request kind of a code byte, if it is one of the seventeen (R140 step 1). -/
def requestKind? (code : Byte) : Option RequestKind := RequestKind.all.find? fun k => k.code == code

/-- Whether a body of length `L` suits a kind (R140 step 2). -/
def lengthSuits (kind : RequestKind) (L : Nat) : Bool :=
  match kind with
  | .configure => L == 8
  | .mapCommit => L == 3
  | .cancel => L == 4
  | .queryTicket => L == 4
  | .counters => L == 3
  | .mapStage => L % 2 == 0
  | .send => 9 ≤ L
  | .ident => L == 2
  | .status => L == 2
  | .attach => L == 2
  | .detach => L == 2
  | .mapWithdraw => L == 2
  | .mapRead => L == 2
  | .fetchMessage => L == 2
  | .fetchEvent => L == 2
  | .peerRead => L == 2
  | .reset => L == 2

/-- Parameter byte `i`, counted from the first (09_host_requests.md). -/
def param (params : List Byte) (i : Nat) : Byte := params.getD i 0

/-- The configuration that CONFIGURE's six bytes carry, if every byte is in its range (R144). -/
def configOperand (params : List Byte) : Option Configuration :=
  let p := param params
  if (p 0).toNat ≤ 1 ∧ (p 1).toNat ≤ 11 ∧ 1 ≤ (p 2).toNat ∧ (p 3).toNat ≤ 3
      ∧ 2 ≤ (p 4).toNat ∧ (p 4).toNat ≤ 15 ∧ (p 5).toNat ≤ 7 then
    some { role := if p 0 = 0 then .member else .master
           node := nodeOf? (p 1).toNat
           epoch := p 2
           rateCode := (p 3).setWidth 2
           ackWait := (p 4).toNat
           retryLimit := (p 5).toNat }
  else none

/-- MAP_STAGE's pairs, two bytes each: a slot, then its owner (R147). -/
def pairsOperand : List Byte → List (Byte × Byte)
  | slot :: owner :: rest => (slot, owner) :: pairsOperand rest
  | _ => []

/-- A pair that R36 refuses: slot 0 or above 15, or owner 12 to 14 or above 15. -/
def badPair (p : Byte × Byte) : Bool :=
  p.1 == 0 || 15 < p.1.toNat || invalidOwner p.2.toNat || 15 < p.2.toNat

/-- Whether two pairs of a list name the same slot (R36). -/
def repeatsSlot : List (Byte × Byte) → Bool
  | [] => false
  | p :: rest => (rest.any fun q => q.1 == p.1) || repeatsSlot rest

/-- The parameters of SEND (R150). -/
structure SendOperand where
  /-- none for a class byte other than 0 and 1 -/
  cls : Option MsgClass
  ackreq : Bool
  dest : Half
  tag : Byte
  lifetime : Half
  payload : List Byte
deriving DecidableEq, Repr

/-- SEND's seven fixed bytes and its payload, whose length is L − 9 (R150). -/
def sendOperand (params : List Byte) : SendOperand :=
  let p := param params
  { cls := if p 0 = 0 then some .routine else if p 0 = 1 then some .urgent else none
    ackreq := (p 1).getLsbD 0
    dest := halfOf (p 2) (p 3)
    tag := p 4
    lifetime := halfOf (p 5) (p 6)
    payload := params.drop 7 }

/-- The ticket that CANCEL and QUERY_TICKET carry (R151, R152). -/
def ticketOperand (params : List Byte) : Ticket := halfOf (param params 0) (param params 1)

/-- What the characters of a frame have come to (R132). -/
inductive FrameProgress where
  /-- more characters of the frame are to come -/
  | collecting
  | error (fault : FrameFault)
  /-- the second CRC byte completed a good request -/
  | complete (r : HostRequest)
deriving DecidableEq, Repr

/-- The characters of a request frame after its lead byte, at least the length byte, judged by the Host Port as far as they go
(R129, R132): a bad length byte is found at once, and the CRC over the length byte and the body with the second CRC byte. -/
def judgeFrame (frame : List Byte) : FrameProgress :=
  let l := (param frame 0).toNat
  if l < 2 ∨ Config.longestBody < l then .error .badLength
  else if frame.length < l + 3 then .collecting
  else if crc16 (frame.take (l + 1)) ≠ halfOf (param frame (l + 1)) (param frame (l + 2)) then .error .crcMismatch
  else .complete { kind := param frame 1, seq := param frame 2, params := (frame.take (l + 1)).drop 3 }

/-- The characters of a request frame after its lead byte (R129): what a host sends. -/
def requestFrame (r : HostRequest) : List Byte :=
  withCrc (byteOf (r.params.length + 2) :: r.kind :: r.seq :: r.params)

end Sys2Proof.Machine
end

