-- ==== Sys2Proof/Machine/Reports.lean ====
section
/-! DEFINITION. The data bytes of the reporting requests and of the fetches, laid out byte by byte (09_host_requests.md). -/
namespace Sys2Proof.Machine

/-- IDENT's 16 bytes (R142). -/
def identData (s : State) : List Byte :=
  [0x45, 0xA1, 0x12, 0x16, 1, s.host.rate.setWidth 8, byteOf Config.stations, byteOf Config.slotsPerFrame,
   byteOf Config.outboundRecords, byteOf Config.outboundBlocks, byteOf Config.mailboxPlaces, byteOf Config.inboundBlocks,
   byteOf Config.resultPlaces, byteOf Config.nonResultPlaces, byteOf Config.longestMessage, byteOf Config.longestBody]

/-- Result events in the event queue (R118, R143). -/
def resultCount (s : State) : Nat := s.events.records.countP fun e => e.kind.isResult

/-- Non-result events in the event queue (R119, R143). -/
def nonResultEvents (s : State) : Nat := s.events.records.countP fun e => !e.kind.isResult

/-- STATUS's 22 bytes (R143). -/
def statusData (s : State) : List Byte :=
  let c := s.station.config
  [s.station.state.code, c.role.code, (c.node.map nodeByte).getD 0xFF, c.epoch, c.rateCode.setWidth 8, byteOf c.ackWait,
   byteOf c.retryLimit, s.link.lock.code]
  ++ halfBytes s.link.frame
  ++ [statusFlags s, (activeGeneration s).getD 0]
  ++ halfBytes ((s.map.pendingMap.map fun p => p.effective).getD 0)
  ++ [byteOf (ownedSlotCount s), byteOf s.tx.records.length, byteOf s.tx.freeBlocks, byteOf s.rx.mailbox.length,
      byteOf s.rx.freeBlocks, byteOf (assemblingCount s), byteOf (resultCount s), byteOf (nonResultEvents s)]

/-- Owner codes of slots 0 to 15 of the active map; every one 15 when there is none (R50, R149). -/
def activeNibbles (s : State) : List Nibble :=
  match s.map.active with
  | none => List.replicate 16 15
  | some m => ownerNibble s.map.masterNode :: ownerNibbles m.owners

/-- Frame boundaries still to come before the pending map switches; 0 when none is pending (R149).  A member's frame number
written by a control cell of unusable content can stand more than 255 frames from the effective frame (R7, R44), and the byte is
then a free value (log entry 22).  A boundary whose switch is still to be done is itself to come (log entry 22). -/
def boundariesToCome (s : State) : Byte :=
  match s.map.pendingMap with
  | none => 0
  | some p =>
    let distance := p.effective - s.link.frame
    if .mapSwitch ∈ s.due then 1
    else if distance.toNat ≤ 255 then loByte distance else Config.farDistance distance

/-- MAP_READ's 35 bytes (R149). -/
def mapReadData (s : State) : List Byte :=
  let p := s.map.pendingMap
  [mapFlags s, (activeGeneration s).getD 0, s.map.frameGeneration.getD 0]
  ++ packNibbles (activeNibbles s)
  ++ [(p.map fun q => q.map.generation).getD 0]
  ++ halfBytes ((p.map fun q => q.effective).getD 0)
  ++ [boundariesToCome s]
  ++ packNibbles (ownerNibbles ((p.map fun q => q.map.owners).getD SlotOwners.noOwner))
  ++ packNibbles (ownerNibbles s.map.staged)
  ++ [(s.map.masterNode.map nodeByte).getD 0, (s.map.masterRate.map fun r => r.setWidth 8).getD 0, s.map.outcome.code,
      byteOf (ownedSlotCount s)]

/-- The place of a record in the RETRY order, counting from 1; 0 when it is not in RETRY (R152). -/
def retryPosition (r : Record) (s : State) : Nat :=
  if r.state = .retry then s.tx.retryOrder.idxOf r.ticket + 1 else 0

/-- The next index that QUERY_TICKET reports, 0 to 7 while SENDING and 0 otherwise (R152).  Once the last of eight cells has begun the
record's own count is 8 (R68), and the report is a free value of the range (log entry 23). -/
def reportedIndex (r : Record) : Byte :=
  match r.pass with
  | none => 0
  | some p => if p.nextIndex ≤ 7 then byteOf p.nextIndex else (Config.fullIndex r.ticket r.attempts).setWidth 8

/-- QUERY_TICKET's 21 bytes (R152). -/
def recordData (r : Record) (s : State) : List Byte :=
  halfBytes r.ticket
  ++ [r.state.code, recordFlags r, (r.number.map fun n => n.setWidth 8).getD 0, byteOf r.attempts, byteOf r.ackTimer]
  ++ halfBytes (setField r.dest)
  ++ halfBytes (setField (if r.ackreq then r.pendingSet else 0))
  ++ halfBytes (setField r.acked)
  ++ halfBytes r.lifetime
  ++ [byteOf r.payload.length, r.tag, reportedIndex r]
  ++ halfBytes (setField ((r.pass.map fun p => p.set).getD 0))
  ++ [byteOf (retryPosition r s)]

/-- FETCH_MESSAGE's 7 bytes and payload (R153). -/
def entryData (e : Entry) : List Byte :=
  [nodeByte e.source, e.tag, byteOf e.payload.length, flagBit e.ackreq 0, e.lostBefore] ++ halfBytes e.frame ++ e.payload

/-- The data of an event's kind (R154). -/
def eventKindData : EventKind → List Byte
  | .result t o a dest acked => halfBytes t ++ [o.code, byteOf a] ++ halfBytes (setField dest) ++ halfBytes (setField acked)
  | .linkUp m => [(m.map nodeByte).getD 0]
  | .linkDown c => [c.code]
  | .mapApplied g f => g :: halfBytes f
  | .mapResync old new => [flagBit old.isSome 0, old.getD 0, new]
  | .peerEpoch n old new => [nodeByte n, old, new]
  | .detached n => [byteOf n]

/-- FETCH_EVENT's four common bytes and the data of the kind (R154). -/
def eventData (e : EventRecord) : List Byte :=
  [e.kind.code, e.lostBefore] ++ halfBytes e.frame ++ eventKindData e.kind

/-- COUNTERS's 28 bytes (R155). -/
def countersData (c : Counters) : List Byte :=
  [c.good, c.bad, c.emptySlots, c.foreign, c.silentFrames, c.lockLosses, c.staleAcks, c.duplicates, c.breaks, c.noRoom,
   c.retransmissions, c.frameErrors, c.overruns, c.eventsLost].flatMap halfBytes

/-- A node's four bytes of PEER_READ (R156). -/
def peerData (s : State) (n : Node) : List Byte :=
  let p := s.rx.peers.get n
  [peerFlags n s, p.epoch.getD 0, (p.lastAccepted.map fun x => x.setWidth 8).getD 0,
   ((s.tx.sendTable.get n).map fun x => x.setWidth 8).getD 0]

/-- PEER_READ's 48 bytes (R156). -/
def peerReadData (s : State) : List Byte := allNodes.flatMap (peerData s)

end Sys2Proof.Machine
end

