-- ==== Sys2Proof/Machine/Receive.lean ====
section
/-! DEFINITION. Receiving a slot: the foreign-cell check, the hand-off of a good cell to its owners, and the decision on transmit
permission that follows slot 0's cell (02_cells_on_the_link.md, R17, R18). -/
namespace Sys2Proof.Machine

/-- Whether the foreign-cell check is made for a slot: always on a master, and on a member that has a map and whose frame
generation the frame's control cell announced (R28). -/
def checksOwner (slot : Slot) (s : State) : Bool :=
  slot.val != 0
    && (s.station.config.role == .master
        || (s.map.active.isSome && s.rx.controlRecord.isSome && s.rx.controlRecord == s.map.frameGeneration))

/-- Whether a valid cell is foreign: the check is made and its source is not the owner of the slot (R28). -/
def isForeign (slot : Slot) (source : Node) (s : State) : Bool :=
  checksOwner slot s && slotOwner slot s != some source

/-- Whether the acknowledgement field of a good cell is a notice for this part (R31). -/
def carriesNotice (c : Cell) (s : State) : Bool :=
  c.ackValid && s.station.config.node.isSome && nodeOf? c.ackTarget.toNat == s.station.config.node
    && c.ackEpoch == s.station.config.epoch

/-- Whether a DATA cell is addressed to this part (R32). -/
def addressedHere (c : Cell) (s : State) : Bool :=
  match s.station.config.node with
  | none => false
  | some n => hasNode c.destSet n

/-- The control step of the hand-off on a member (R30): the control record, the frame number and the control-cell flag, and
then the Map Unit. -/
def controlStep (source : Node) (c : Cell) (s : State) : State :=
  let content := readContent c.payload
  followMap source content
    { s with
      rx.controlRecord := some content.current
      link.frame := content.frame
      link.controlFlag := true }

/-- The hand-off of a good cell: epoch, acknowledgement notice, then control content or data (R29, R30 to R32). -/
def handOff (source : Node) (c : Cell) (s : State) : State :=
  let s := { s with counters.good := bump s.counters.good }
  let s := epochStep source c.epoch s
  let s := if carriesNotice c s then applyNotice source c.ackNumber s else s
  if c.kind = kindControl then
    if s.station.config.role = .member then controlStep source c s else s
  else if c.kind = kindData ∧ addressedHere c s then dataStep source c s
  else s

/-- The judgement of an image received in a slot: empty, bad, foreign or good, and each is counted (R25, R26, R28, R29). -/
def judgeImage (slot : Slot) (image : List Byte) (s : State) : State :=
  let c := readCell image
  if isEmptySlot image then { s with counters.emptySlots := bump s.counters.emptySlots }
  else if !validImage s.station.config.node slot image then { s with counters.bad := bump s.counters.bad }
  else
    match nodeOf? c.source.toNat with
    | none => { s with counters.bad := bump s.counters.bad }
    | some source =>
      if isForeign slot source s then { s with counters.foreign := bump s.counters.foreign }
      else handOff source c s

/-- Whether the evidence of the frame gives a member transmit permission: LOCKED, and the control cell announced the frame
generation (R17). -/
def grantsPermission (s : State) : Bool :=
  s.link.lock == .locked && s.rx.controlRecord.isSome && s.rx.controlRecord == s.map.frameGeneration

/-- The decision on a member's transmit permission, once for each frame begun at a counted boundary; a refusal is counted as a
silent frame (R17, R18). -/
def decidePermission (s : State) : State :=
  if s.link.decisionDue then
    let granted := grantsPermission s
    let s := { s with link.permission := granted, link.decisionDue := false }
    if granted then s else { s with counters.silentFrames := bump s.counters.silentFrames }
  else s

end Sys2Proof.Machine
end

