-- ==== Sys2Proof/Machine/Lock.lean ====
section
/-! DEFINITION. The Link Timing Unit of a member: taking a reference, counting a boundary, and losing lock
(01_frames_slots_and_lock.md). -/
namespace Sys2Proof.Machine

/-- The start of a frame's count at a boundary or a reference mark: position 0, no slot started, no control cell yet (R2, R9,
R10, R27). -/
def beginCount (s : State) : State :=
  { s with
    link.position := some 0
    link.nextSlot := 0
    link.controlFlag := false
    rx.controlRecord := none
    rx.receiving := none }

/-- A mark is taken as the reference of VERIFY: position 0, the control-cell flag clear, and the Map Unit sets the frame
generation (R8, R9, R35). -/
def takeReference (s : State) : State :=
  setFrameGeneration
    { beginCount s with link.lock := .verify, link.missed := 0, link.permission := false, link.decisionDue := false }

/-- The member goes to SEARCH: the count stops, and a reception in progress is abandoned (R9, R12, R24). -/
def enterSearch (s : State) : State :=
  { s with
    link.lock := .search
    link.position := none
    link.missed := 0
    link.controlFlag := false
    link.permission := false
    link.decisionDue := false
    rx.receiving := none }

/-- A member's frame number and count at a counted boundary, with the permission decision of the frame still to make (R7, R10,
R17). -/
def openFrame (s : State) : State :=
  { beginCount s with link.frame := s.link.frame + 1, link.permission := false, link.decisionDue := true }

/-- A member counts a frame boundary, in the lock state and with the missed count it now has, and announces it (R10, R11,
R15). -/
def countBoundary (lock : LockState) (missed : Nat) (s : State) : State :=
  announceBoundary true { openFrame s with link.lock := lock, link.missed := missed }

/-- A member enters LOCKED from VERIFY at a counted boundary and places LINK_UP with the frame number of the frame that the
boundary begins (R14). -/
def enterLocked (s : State) : State :=
  let s := { openFrame s with link.lock := .locked, link.missed := 0 }
  announceBoundary true (offerEvent (.linkUp s.map.masterNode) s)

/-- The reports of a lock loss: LINK_DOWN, and the cut of the pass in progress.  The manual leaves their order open (R13); where
the cut places a result, it is drawn by the free choice (log entry 3). -/
def reportLoss (cause : LossCause) (s : State) : State :=
  if cutPlacesResult s then
    let drawn := Config.freeChoice s.choices
    let s := { s with choices := s.choices + 1 }
    if drawn % 2 = 0 then cutPass (offerEvent (.linkDown cause) s) else offerEvent (.linkDown cause) (cutPass s)
  else cutPass (offerEvent (.linkDown cause) s)

/-- A lock loss (R13): permission and the line are given up, the loss is counted and reported, the pass is cut, the member
enters SEARCH or VERIFY, and last a detach in progress completes. -/
def lockLoss (cause : LossCause) (enter : State → State) (s : State) : State :=
  let s := { s with
    link.permission := false
    link.decisionDue := false
    tx.cell := none
    counters.lockLosses := bump s.counters.lockLosses }
  let s := enter (reportLoss cause s)
  if s.station.state = .detaching then completeDetach s else s

/-- Whether the cell being driven has ended by a count of LCK periods in the frame (R3). -/
def cellEndedBy (count : Nat) (s : State) : Bool :=
  match s.tx.cell with
  | none => false
  | some c => Config.periodsPerSlot * c.slot.val + Config.cellBits ≤ count

/-- What must have happened by a count of LCK periods in the frame, if no command has told it: the cell being driven has ended,
and from slot 1 on the permission decision has been made (R3, R17, R69; log entry 5). -/
def passTime (count : Nat) (s : State) : State :=
  let s := if cellEndedBy count s then endCell s else s
  if Config.periodsPerSlot ≤ count then decidePermission s else s

/-- The Link Timing Unit announces slot starts in these states (R16). -/
def announcesSlots (l : LockState) : Bool := l == .driving || l == .verify || l == .locked || l == .coast

end Sys2Proof.Machine
end

