-- ==== Sys2Proof/Machine/StationControl.lean ====
section
/-! DEFINITION. Station Control: CONFIGURE, ATTACH and DETACH, and what the resets leave (10_joining_and_leaving_the_link.md). -/
namespace Sys2Proof.Machine

/-- What execution of a request gives: the reply's status and data, and the state (R134, R140). -/
abbrev Answer := Status × List Byte × State

/-- A request refused: no data, and nothing changed (R140). -/
def refuse (status : Status) (s : State) : Answer := (status, [], s)

/-! ## CONFIGURE -/

/-- The table entries that CONFIGURE clears: all send numbers and open numbers under a new epoch, and everything held for a node
that becomes the own node (R66, R67, R77, R158). -/
def forgetNumbers (c : Configuration) (s : State) : State :=
  let s := if c.epoch = s.station.config.epoch then s
    else { s with tx.sendTable := Vector.replicate 12 none, tx.openSets := Vector.replicate 12 0 }
  match c.node with
  | none => s
  | some n =>
    if s.station.config.node = some n then s
    else { s with
      rx.peers := s.rx.peers.set n.val { epoch := none, lastAccepted := none }
      tx.sendTable := s.tx.sendTable.set n.val none
      tx.openSets := s.tx.openSets.set n.val 0 }

/-- A configuration that passed its checks is written whole (R158). -/
def applyConfig (c : Configuration) (s : State) : State :=
  let s := forgetNumbers c s
  { s with station := { state := .detached, config := c }, map := configuredMap c }

/-- CONFIGURE's own checks and effect (R144, R158). -/
def requestConfigure (params : List Byte) (s : State) : Answer :=
  match configOperand params with
  | none => refuse .badParam s
  | some c =>
    if s.tx.records ≠ [] then refuse .queueNotEmpty s
    else (.ok, [], applyConfig c s)

/-! ## ATTACH and DETACH -/

/-- A master's Link Timing Unit at ATTACH: DRIVING from frame 0 with permission; its first mark is its first frame boundary (R4,
R17). -/
def startDriving (s : State) : State :=
  announceBoundary true
    { beginCount s with link.lock := .driving, link.frame := 0, link.missed := 0, link.permission := true, link.decisionDue := false }

/-- ATTACH (R39, R159). -/
def requestAttach (s : State) : Answer :=
  let s := { s with station.state := .attached, map.outcome := .nothing }
  match s.station.config.role with
  | .master => (.ok, [], startDriving s)
  | .member => (.ok, [], enterSearch s)

/-- DETACH, by the station state and on a member the lock state (R160). -/
def requestDetach (s : State) : Answer :=
  if s.station.state = .detaching then (.detachPending, [], s)
  else if s.link.lock = .search ∨ s.link.lock = .verify then (.ok, [], completeDetach s)
  else (.detachPending, [], { s with station.state := .detaching })

/-! ## Resets -/

/-- Every block at its values after a reset, at a strapped rate; the model's own queue of commands and count of draws stand
(R164, R165). -/
def resetState (phase : Phase) (rate : BitVec 2) (s : State) : State :=
  { State.reset with phase := phase, host := HostPort.reset rate, choices := s.choices, pending := s.pending }

/-- The RESET request takes effect at the end of its reply: the strapped rate is kept and the part runs at once (R164, R171). -/
def requestReset (s : State) : State := resetState .running s.host.rate s

/-- RSTN low: the lines are released, a cell or reply in transmission is cut, a reception or frame in progress is abandoned, and
no event is acted on (R6, R24, R33, R139, R165). -/
def holdInReset (s : State) : State :=
  { s with
    phase := .held
    link := LinkTiming.reset
    tx.cell := none
    rx.receiving := none
    host := HostPort.reset s.host.rate
    due := []
    schedulerBegun := false }

end Sys2Proof.Machine
end

