-- ==== Sys2Proof/Machine/Messages.lean ====
section
/-! DEFINITION. SEND and CANCEL, and the fetches of messages and events (04_the_outbound_queue.md, 05_acknowledged_delivery.md,
06_reassembly_and_the_inbound_mailbox.md, 07_the_event_queue_and_the_attention_line.md). -/
namespace Sys2Proof.Machine

/-! ## SEND -/

/-- The ticket after one: 65535 is followed by 1 (R59). -/
def nextTicketAfter (t : Ticket) : Ticket := if t = 0xFFFF then 1 else t + 1

/-- The first ticket from a value on that no record holds (R59). -/
def freshTicket (records : List Record) : Nat → Ticket → Ticket
  | 0, t => t
  | fuel + 1, t => if records.any fun r => r.ticket == t then freshTicket records fuel (nextTicketAfter t) else t

/-- The ticket that the next accepted SEND is given (R59): found within 32 steps. -/
def assignedTicket (s : State) : Ticket := freshTicket s.tx.records 32 s.tx.nextTicket

/-- Check 2 of SEND on the destination set: not empty, without the own node, and no node above 11 (R57, R150). -/
def goodDestination (dest : Half) (s : State) : Bool :=
  dest != 0 && hiNibble (hiByte dest) == 0
    && (match s.station.config.node with
        | none => true
        | some n => !dest.getLsbD n.val)

/-- The record that an accepted SEND makes (R58). -/
def newRecord (ticket : Ticket) (cls : MsgClass) (o : SendOperand) : Record :=
  let dest : NodeSet := o.dest.extractLsb' 0 12
  { ticket := ticket, cls := cls, ackreq := o.ackreq, dest := dest, pendingSet := if o.ackreq then dest else 0, tag := o.tag,
    payload := o.payload, lifetime := o.lifetime, number := none, attempts := 0, state := .queued, cancelRequested := false,
    ackTimer := 0, pass := none }

/-- A SEND is accepted: its place is held, its blocks are taken, and its record joins the queue (R58). -/
def acceptSend (cls : MsgClass) (o : SendOperand) (s : State) : Answer :=
  let ticket := assignedTicket s
  (.ok, halfBytes ticket,
    { s with
      events.heldCount := s.events.heldCount + 1
      tx.freeBlocks := s.tx.freeBlocks - blocksFor o.payload.length
      tx.nextTicket := nextTicketAfter ticket
      tx.records := s.tx.records ++ [newRecord ticket cls o] })

/-- SEND, its state check passed: checks 2 to 5 of R57 in order, then acceptance (R150). -/
def requestSend (params : List Byte) (s : State) : Answer :=
  let o := sendOperand params
  match o.cls with
  | none => refuse .badParam s
  | some cls =>
    if !goodDestination o.dest s then refuse .badParam s
    else if Config.longestMessage < o.payload.length then refuse .tooLong s
    else if Config.resultPlaces ≤ s.events.heldCount then refuse .queueFull s
    else if s.tx.freeBlocks < blocksFor o.payload.length then refuse .poolFull s
    else acceptSend cls o s

/-! ## CANCEL and QUERY_TICKET -/

/-- CANCEL, its state check passed (R92 to R94). -/
def requestCancel (params : List Byte) (s : State) : Answer :=
  match findRecord (ticketOperand params) s with
  | none => refuse .noSuchTicket s
  | some r => ((cancelRecord r s).1, [], (cancelRecord r s).2)

/-- QUERY_TICKET (R152). -/
def requestQuery (params : List Byte) (s : State) : Answer :=
  match findRecord (ticketOperand params) s with
  | none => refuse .noSuchTicket s
  | some r => (.ok, recordData r s, s)

/-! ## Fetching -/

/-- FETCH_MESSAGE (R112, R153). -/
def requestFetchMessage (s : State) : Answer :=
  match s.rx.mailbox with
  | [] => refuse .empty s
  | e :: rest => (.ok, entryData e, { s with rx.mailbox := rest, rx.freeBlocks := s.rx.freeBlocks + e.blocks })

/-- FETCH_EVENT (R124, R154).  The EMPTY reply alone among refusals carries a byte, the pending lost count. -/
def requestFetchEvent (s : State) : Answer :=
  match s.events.records with
  | [] => (.empty, [s.events.pendingLost], s)
  | e :: rest =>
    let s := { s with events.records := rest }
    (.ok, eventData e,
      if e.kind.isResult then { s with events.heldCount := s.events.heldCount - 1 }
      else { s with events.nonResultCount := s.events.nonResultCount - 1 })

/-- COUNTERS: the counters are read, and with bit 0 of the option set they are cleared in the same step (R155, R167). -/
def requestCounters (params : List Byte) (s : State) : Answer :=
  (.ok, countersData s.counters,
    if (param params 0).getLsbD 0 then { s with counters := Counters.zero } else s)

end Sys2Proof.Machine
end

