-- ==== Sys2Proof/Machine/SlotMap.lean ====
section
/-! DEFINITION. The map requests of a master: MAP_STAGE, MAP_COMMIT and MAP_WITHDRAW (03_the_slot_map.md). -/
namespace Sys2Proof.Machine

/-- One pair sets the owner of its slot in the staged map (R36). -/
def stagePair (staged : SlotOwners) (p : Byte × Byte) : SlotOwners :=
  Vector.ofFn fun i => if i.val + 1 = p.1.toNat then ownerOf (loNibble p.2) else staged.get i

/-- MAP_STAGE: all pairs are checked before any is staged (R36, R147). -/
def requestMapStage (params : List Byte) (s : State) : Answer :=
  let pairs := pairsOperand params
  if pairs.length < 1 ∨ 15 < pairs.length ∨ pairs.any badPair ∨ repeatsSlot pairs then refuse .badParam s
  else (.ok, [], { s with map.staged := pairs.foldl stagePair s.map.staged })

/-- MAP_COMMIT in DETACHED: the staged map is installed at once under the next generation (R37). -/
def commitAtOnce (s : State) : Answer :=
  let generation := (activeGeneration s).getD 0 + 1
  (.ok, [1, generation, 0, 0],
    setFrameGeneration
      { s with map.active := some { owners := s.map.staged, generation := generation }, map.outcome := .applied })

/-- MAP_COMMIT in ATTACHED: the staged map becomes the pending map with an effective frame `lead` frames on (R38). -/
def commitPending (lead : Byte) (s : State) : Answer :=
  if s.map.pendingMap.isSome then refuse .mapPending s
  else
    let generation := (activeGeneration s).getD 0 + 1
    let effective := s.link.frame + lead.setWidth 16
    (.ok, 0 :: generation :: halfBytes effective,
      { s with
        map.pendingMap := some { map := { owners := s.map.staged, generation := generation }, effective := effective }
        map.outcome := .pending })

/-- MAP_COMMIT, its state and role checks passed (R37, R38, R148). -/
def requestMapCommit (params : List Byte) (s : State) : Answer :=
  let lead := param params 0
  if lead.toNat < 4 then refuse .badParam s
  else if s.station.state = .detached then commitAtOnce s
  else commitPending lead s

/-- A switch that a boundary has left to do finds its map withdrawn: there is no switch, and the rest of the Map Unit's boundary work
is done (R40, R41). -/
def dropSwitch (s : State) : State :=
  if .mapSwitch ∈ s.due then closeMapWork { s with due := s.due.erase .mapSwitch } else s

/-- MAP_WITHDRAW, answered from the pending map and the last-commit outcome (R40). -/
def requestMapWithdraw (s : State) : Answer :=
  if s.map.pendingMap.isSome then
    (.ok, [], dropSwitch { s with map.pendingMap := none, map.outcome := .withdrawn })
  else if s.map.outcome = .applied then refuse .tooLate s
  else refuse .nothingPending s

end Sys2Proof.Machine
end

