-- ==== Sys2Proof/Machine/Requests.lean ====
section
/-! DEFINITION. How a request is judged and executed, taken up, kept and answered (08_the_host_line.md, 09_host_requests.md). -/
namespace Sys2Proof.Machine

/-- Whether a kind is one of the three map requests that only a master takes (R141). -/
def masterOnly : RequestKind → Bool
  | .mapStage | .mapCommit | .mapWithdraw => true
  | .ident | .status | .configure | .attach | .detach | .mapRead | .send | .cancel | .queryTicket | .fetchMessage
  | .fetchEvent | .counters | .peerRead | .reset => false

/-- Whether a station state takes a kind, roles apart (R141). -/
def stateTakes (kind : RequestKind) (state : StationState) : Bool :=
  match kind with
  | .ident | .status | .mapRead | .queryTicket | .fetchMessage | .fetchEvent | .counters | .peerRead | .reset => true
  | .configure => state == .unconfigured || state == .detached
  | .attach => state == .detached
  | .detach => state == .attached || state == .detaching
  | .send => state == .detached || state == .attached
  | .cancel => state != .unconfigured
  | .mapStage | .mapWithdraw => state != .unconfigured
  | .mapCommit => state == .detached || state == .attached

/-- The state and role checks: UNCONFIGURED first, then the role, then the other states (R141).  None when the request is
taken. -/
def stateCheck (kind : RequestKind) (s : State) : Option Status :=
  if s.station.state = .unconfigured ∧ !stateTakes kind .unconfigured then some .wrongState
  else if masterOnly kind ∧ s.station.config.role = .member then some .notMaster
  else if !stateTakes kind s.station.state then some .wrongState
  else none

/-- A request that passed the general checks goes to the block that owns its effect (R140 step 4). -/
def performRequest (kind : RequestKind) (params : List Byte) (s : State) : Answer :=
  match kind with
  | .ident => (.ok, identData s, s)
  | .status => (.ok, statusData s, s)
  | .configure => requestConfigure params s
  | .attach => requestAttach s
  | .detach => requestDetach s
  | .mapStage => requestMapStage params s
  | .mapCommit => requestMapCommit params s
  | .mapWithdraw => requestMapWithdraw s
  | .mapRead => (.ok, mapReadData s, s)
  | .send => requestSend params s
  | .cancel => requestCancel params s
  | .queryTicket => requestQuery params s
  | .fetchMessage => requestFetchMessage s
  | .fetchEvent => requestFetchEvent s
  | .counters => requestCounters params s
  | .peerRead => (.ok, peerReadData s, s)
  | .reset => (.ok, [], s)

/-- A request is judged in the order of R140: kind, length, state and role, and then its own checks. -/
def judgeRequest (r : HostRequest) (s : State) : Answer :=
  match requestKind? r.kind with
  | none => refuse .unknownKind s
  | some kind =>
    if !lengthSuits kind (r.params.length + 2) then refuse .badLength s
    else
      match stateCheck kind s with
      | some status => refuse status s
      | none => performRequest kind r.params s

/-- The transmission of a reply begins: the flags are composed, and the overrun flag is cleared (R135). -/
def beginReply (reply : Reply) (replay resets : Bool) (s : State) : State :=
  { s with
    host.sending := some { reply := reply, replay := replay, overrun := s.host.overrun, resets := resets }
    host.overrun := false }

/-- The reply to an executed request (R130, R134). -/
def replyTo (r : HostRequest) (a : Answer) : Reply :=
  { kind := r.kind + 0x80, seq := r.seq, status := a.1, data := a.2.1 }

/-- A request is executed: its effects stand, its reply becomes the kept reply, and the reply's transmission begins (R134).  At
the end of the reply of a RESET that was answered OK, the part resets (R164). -/
def executeRequest (r : HostRequest) (s : State) : State :=
  let a := judgeRequest r s
  let reply := replyTo r a
  beginReply reply false (r.kind == RequestKind.reset.code && a.1 == .ok)
    { a.2.2 with host.kept := some reply }

/-- A request is taken up: replayed when its sequence is that of the kept reply, and otherwise executed (R134). -/
def takeUp (r : HostRequest) (s : State) : State :=
  match s.host.kept with
  | none => executeRequest r s
  | some k => if k.seq = r.seq then beginReply k true false s else executeRequest r s

/-- A complete good request arrives: it is discarded and counted with the waiting place full, waits while a reply is being
transmitted, and is taken up otherwise (R134, R136, R137). -/
def arrive (r : HostRequest) (s : State) : State :=
  if s.host.waiting.isSome then { s with host.overrun := true, counters.overruns := bump s.counters.overruns }
  else if s.host.sending.isSome then { s with host.waiting := some r }
  else takeUp r s

/-! ## Characters on HRX -/

/-- A frame error: the frame is discarded and counted, and the receive state returns to IDLE (R132). -/
def frameError (s : State) : State :=
  { s with host.receive := .idle, counters.frameErrors := bump s.counters.frameErrors }

/-- What makes a frame error in IN_FRAME; in IDLE it is discarded without a count (R131, R132, R133). -/
def errorInFrame (s : State) : State :=
  match s.host.receive with
  | .idle => s
  | .inFrame _ => frameError s

/-- A request whose frame has just been completed: the receive state returns to IDLE, and the request arrives (R132). -/
def completeFrame (r : HostRequest) (s : State) : State := arrive r { s with host.receive := .idle }

/-- A character without a fault is received: in IDLE a lead byte opens a frame and any other character is discarded; in IN_FRAME it is
the frame's next character, and may end the frame (R131, R132). -/
def takeCharacter (s : State) (value : Byte) : State :=
  match s.host.receive with
  | .idle => if value = 0xC3 then { s with host.receive := .inFrame [] } else s
  | .inFrame taken =>
    match judgeFrame (taken ++ [value]) with
    | .collecting => { s with host.receive := .inFrame (taken ++ [value]) }
    | .error _ => frameError s
    | .complete r => completeFrame r s

/-- Characters without a fault are received, one after another. -/
def takeCharacters (values : List Byte) (s : State) : State := values.foldl takeCharacter s

/-- The characters of a request's frame after its lead byte are received, wherever boundary work stands (R125).  Behind the lead
byte of their own frame they complete the request; in IDLE, or inside another frame, they are the characters they are (R131, R132).
Outside normal running the part receives nothing (R165, R170). -/
def receiveRequest (r : HostRequest) (s : State) : State :=
  if s.phase = .running then
    if s.host.receive = .inFrame [] then completeFrame r s else takeCharacters (requestFrame r) s
  else s

/-- The transmission of a reply ends.  After the reply of a RESET the reset takes effect and a waiting request is discarded;
otherwise a waiting request is taken up (R136, R164). -/
def endReply (s : State) : State :=
  match s.host.sending with
  | none => s
  | some r =>
    if r.resets then requestReset s
    else
      let s := { s with host.sending := none }
      match s.host.waiting with
      | none => s
      | some w => takeUp w { s with host.waiting := none }

end Sys2Proof.Machine
end

