-- ==== Sys2Proof/Machine/HostLine.lean ====
section
/-! DEFINITION. The meanings of the host line's own events (08_the_host_line.md). -/
namespace Sys2Proof.Machine

/-- REQUEST_RECEIVED: characters without a fault are received.  Behind a lead byte they complete a request, which is taken up, waits or
is discarded, or end in a frame error; in IDLE they are the tail of a frame that is lost (R129, R131, R132, R134, R136, R137).  The place
of characters in the queue is log entry 24's. -/
def execRequestReceived (frame : List Byte) (s : State) : Host.Outcome State Fault Refusal :=
  if s.phase = .running then .next (takeCharacters frame s) else .next s

/-- REPLY_TRANSMISSION_END: the stop bit of a reply's second CRC byte (R135, R136, R164).  With no reply in transmission there
is no such event, and nothing changes. -/
def execReplyTransmissionEnd (s : State) : Host.Outcome State Fault Refusal :=
  if s.phase = .running then .next (endReply s) else .next s

/-- HOST_FRAME_ERROR: a frame in progress has a bad length, a character fault or a CRC mismatch (R132).  The three have one effect; in
IDLE there is no frame, and nothing is counted (R131). -/
def execHostFrameError (fault : FrameFault) (s : State) : Host.Outcome State Fault Refusal :=
  match fault with
  | .badLength | .characterFault | .crcMismatch => if s.phase = .running then .next (errorInFrame s) else .next s

/-- GAP_TIMEOUT: more than 32 bit times of silence inside a frame end it with a frame error; the timer does not run in IDLE
(R133). -/
def execGapTimeout (s : State) : Host.Outcome State Fault Refusal :=
  if s.phase = .running then .next (errorInFrame s) else .next s

/-- A character is received, with or without a character fault: a fault is a frame error in IN_FRAME, and in IDLE the character is
discarded (R131, R132). -/
def receiveCharacter (value : Byte) (fault : Bool) (s : State) : State :=
  if fault then errorInFrame s else takeCharacter s value

/-- LEAD_BYTE: a character on HRX.  In IDLE a fault-free 0xC3 makes the receive state IN_FRAME and every other character is discarded
without a count (R131); in IN_FRAME it is a character of the frame (R132); and outside normal running every character is discarded (R165,
R170).  DESIGN CHOICE (log entry 24): against the end of the start-up interval and a RESET's taking effect the command stands in the queue
where the character's start bit is (R170, R171), and else where its stop bit is. -/
def execLeadByte (value : Byte) (fault : Bool) (s : State) : Host.Outcome State Fault Refusal :=
  if s.phase = .running then .next (receiveCharacter value fault s) else .next s

end Sys2Proof.Machine
end

