-- ==== Sys2Proof/Machine/HostRequests.lean ====
section
/-! DEFINITION. The meanings of the host requests.  Each command is the characters of such a request's frame after its lead
byte: behind a lead byte they complete the request, which is taken up, waits or is discarded as R134, R136 and R137 say, and when it is
executed it is judged by R140 and has the effect of its rule. -/
namespace Sys2Proof.Machine

/-- A request of a known kind arrives. -/
def hostRequest (kind : RequestKind) (seq : Byte) (params : List Byte) (s : State) : Host.Outcome State Fault Refusal :=
  .next (receiveRequest { kind := kind.code, seq := seq, params := params } s)

/-- IDENT reports the identity facts (R142). -/
def execIdent (seq : Byte) (params : List Byte) (s : State) : Host.Outcome State Fault Refusal :=
  hostRequest .ident seq params s

/-- STATUS reports a snapshot of every block (R143). -/
def execStatus (seq : Byte) (params : List Byte) (s : State) : Host.Outcome State Fault Refusal :=
  hostRequest .status seq params s

/-- CONFIGURE writes the configuration (R144, R158). -/
def execConfigure (seq : Byte) (params : List Byte) (s : State) : Host.Outcome State Fault Refusal :=
  hostRequest .configure seq params s

/-- ATTACH joins the link (R159). -/
def execAttach (seq : Byte) (params : List Byte) (s : State) : Host.Outcome State Fault Refusal :=
  hostRequest .attach seq params s

/-- DETACH leaves the link (R160). -/
def execDetach (seq : Byte) (params : List Byte) (s : State) : Host.Outcome State Fault Refusal :=
  hostRequest .detach seq params s

/-- MAP_STAGE edits the staged map (R36, R147). -/
def execMapStage (seq : Byte) (params : List Byte) (s : State) : Host.Outcome State Fault Refusal :=
  hostRequest .mapStage seq params s

/-- MAP_COMMIT commits the staged map (R37, R38, R148). -/
def execMapCommit (seq : Byte) (params : List Byte) (s : State) : Host.Outcome State Fault Refusal :=
  hostRequest .mapCommit seq params s

/-- MAP_WITHDRAW takes a commit back (R40). -/
def execMapWithdraw (seq : Byte) (params : List Byte) (s : State) : Host.Outcome State Fault Refusal :=
  hostRequest .mapWithdraw seq params s

/-- MAP_READ reports the Map Unit (R50, R149). -/
def execMapRead (seq : Byte) (params : List Byte) (s : State) : Host.Outcome State Fault Refusal :=
  hostRequest .mapRead seq params s

/-- SEND posts a message (R57, R58, R150). -/
def execSend (seq : Byte) (params : List Byte) (s : State) : Host.Outcome State Fault Refusal :=
  hostRequest .send seq params s

/-- CANCEL ends a record (R92 to R94, R151). -/
def execCancel (seq : Byte) (params : List Byte) (s : State) : Host.Outcome State Fault Refusal :=
  hostRequest .cancel seq params s

/-- QUERY_TICKET reports a record (R152). -/
def execQueryTicket (seq : Byte) (params : List Byte) (s : State) : Host.Outcome State Fault Refusal :=
  hostRequest .queryTicket seq params s

/-- FETCH_MESSAGE takes the oldest mailbox entry (R112, R153). -/
def execFetchMessage (seq : Byte) (params : List Byte) (s : State) : Host.Outcome State Fault Refusal :=
  hostRequest .fetchMessage seq params s

/-- FETCH_EVENT takes the oldest event (R124, R154). -/
def execFetchEvent (seq : Byte) (params : List Byte) (s : State) : Host.Outcome State Fault Refusal :=
  hostRequest .fetchEvent seq params s

/-- COUNTERS reads and clears the counters (R155, R167). -/
def execCounters (seq : Byte) (params : List Byte) (s : State) : Host.Outcome State Fault Refusal :=
  hostRequest .counters seq params s

/-- PEER_READ reports the peer tables (R156, R169). -/
def execPeerRead (seq : Byte) (params : List Byte) (s : State) : Host.Outcome State Fault Refusal :=
  hostRequest .peerRead seq params s

/-- RESET is answered OK, and the part resets when that reply ends (R146, R164). -/
def execReset (seq : Byte) (params : List Byte) (s : State) : Host.Outcome State Fault Refusal :=
  hostRequest .reset seq params s

/-- A request of a kind the part does not know is executed only to be answered UNKNOWN_KIND (R140). -/
def execUnknownKindRequest (kind seq : Byte) (params : List Byte) (s : State) : Host.Outcome State Fault Refusal :=
  .next (receiveRequest { kind := kind, seq := seq, params := params } s)

end Sys2Proof.Machine
end

