-- ==== Sys2Proof/Machine/Transmit.lean ====
section
/-! DEFINITION. What the Transmit Scheduler sends in a slot: eligibility, the choice among records, the start of a pass, message
numbers, and the composing of cells (02_cells_on_the_link.md, 04_the_outbound_queue.md). -/
namespace Sys2Proof.Machine

/-! ## Composing cells -/

/-- The head of the owed-acknowledgement list is taken into a cell whose transmission begins (R22). -/
def ackFields (owed : Option Owed) (c : Cell) : Cell :=
  match owed with
  | none => { c with ackValid := false, ackTarget := 0, ackNumber := 0, ackEpoch := 0 }
  | some o => { c with ackValid := true, ackTarget := nodeNibble o.source, ackNumber := o.number, ackEpoch := o.epoch }

/-- The station's own node as the source field of a cell (R20). -/
def sourceNibble (s : State) : Nibble := (s.station.config.node.map nodeNibble).getD 15

/-- A FILLER cell, its acknowledgement field unfilled (R21). -/
def fillerCell (s : State) : Cell :=
  { kind := kindFiller, source := sourceNibble s, epoch := s.station.config.epoch, first := true, last := true,
    ackreq := false, index := 0, number := 0, total := 0, dest := 0, tag := 0, ackValid := false, ackTarget := 0,
    ackNumber := 0, ackEpoch := 0, count := 0, payload := [] }

/-- The master's CONTROL cell with the content composed for the frame (R21, R43). -/
def controlCell (s : State) : Cell :=
  { fillerCell s with
    kind := kindControl, total := 16, count := 16
    payload := s.map.content.getD (encodeContent (controlContent s)) }

/-- The DATA cell of index `k` of a record, for a pass to `set` (R20). -/
def dataCell (r : Record) (set : NodeSet) (k : Nat) (s : State) : Cell :=
  let length := r.payload.length
  { fillerCell s with
    kind := kindData
    first := k == 0
    last := k + 1 == cellCount length
    ackreq := r.ackreq
    index := BitVec.ofNat 3 k
    number := if r.ackreq then r.number.getD 0 else 0
    total := byteOf length
    dest := setField set
    tag := r.tag
    count := byteOf (cellShare length k)
    payload := (r.payload.drop (16 * k)).take (cellShare length k) }

/-- The transmission of a cell begins: it takes the head of the owed-acknowledgement list, and the part drives LDAT with it
(R3, R22). -/
def driveCell (slot : Slot) (c : Cell) (endsPassOf : Option Ticket) (s : State) : State :=
  { s with
    rx.owed := s.rx.owed.tail
    tx.cell := some { slot := slot, image := encodeCell (ackFields s.rx.owed.head? c), endsPassOf := endsPassOf } }

/-! ## Message numbers -/

/-- The numbers that lie in the open-number set of some node of a destination set (R60, R65). -/
def openUnion (dest : NodeSet) (s : State) : NumberSet :=
  allNodes.foldl (fun u n => if hasNode dest n then u ||| openSet n s else u) 0

/-- The first number from a candidate on, stepping by 1 modulo 16, that a set leaves out (R65). -/
def drawNumber (closed : NumberSet) : Nat → Nibble → Nibble
  | 0, candidate => candidate
  | fuel + 1, candidate =>
    if closed.getLsbD candidate.toNat then drawNumber closed fuel (candidate + 1) else candidate

/-- The number that the first pass of an acknowledged record to a destination set draws (R65). -/
def nextNumber (dest : NodeSet) (s : State) : Nibble := drawNumber (openUnion dest s) 16 (s.tx.lastNumber + 1)

/-- A number is given to a destination set: it enters the send number table and the open-number set of each node, and becomes
the last assigned number (R65, R66, R67). -/
def assignNumber (n : Nibble) (dest : NodeSet) (s : State) : State :=
  { s with
    tx.sendTable := Vector.ofFn fun i => if hasNode dest i then some n else s.tx.sendTable.get i
    tx.openSets := Vector.ofFn fun i => if hasNode dest i then openSet i s ||| onlyNumber n else openSet i s
    tx.lastNumber := n }

/-! ## Eligibility -/

/-- Whether a QUEUED record may start its first pass, given the records older than it (R60). -/
def eligible (older : List Record) (m : Record) (s : State) : Bool :=
  m.state == .queued
    && !(older.any fun o => o.cls == m.cls && meets o.dest m.dest)
    && (!m.ackreq || !(s.tx.records.any fun o => o.ackreq && o.inFlight && meets o.dest m.dest))
    && (!m.ackreq || openUnion m.dest s != BitVec.allOnes 16)

/-- The oldest eligible record of a class, walking the records in order of acceptance (R61 steps 3 and 4). -/
def oldestEligible (cls : MsgClass) (s : State) : List Record → List Record → Option Record
  | _, [] => none
  | older, m :: rest =>
    if m.cls = cls ∧ eligible older m s then some m else oldestEligible cls s (m :: older) rest

/-! ## Passes -/

/-- A SENDING record sends the cell of its next index, and the next index goes up by 1 (R68). -/
def sendNextCell (slot : Slot) (r : Record) (p : Pass) (s : State) : State :=
  let isLast := p.nextIndex + 1 == cellCount r.payload.length
  driveCell slot (dataCell r p.set p.nextIndex s) (if isLast then some r.ticket else none)
    (putRecord { r with pass := some { p with nextIndex := p.nextIndex + 1 } } s)

/-- A first pass starts: SENDING, one attempt more, next index 0, and for an acknowledged record a message number (R64, R65). -/
def startFirstPass (slot : Slot) (r : Record) (s : State) : State :=
  let p : Pass := { kind := .first, set := r.dest, nextIndex := 0 }
  let r := { r with state := .sending, attempts := r.attempts + 1, pass := some p }
  if r.ackreq then
    let n := nextNumber r.dest s
    sendNextCell slot { r with number := some n } p (assignNumber n r.dest s)
  else sendNextCell slot r p s

/-- A retransmission pass starts: it goes to the pending set as it stands, keeps the number, and is counted (R64, R90). -/
def startRetransmission (slot : Slot) (r : Record) (s : State) : State :=
  let p : Pass := { kind := .retransmission, set := r.pendingSet, nextIndex := 0 }
  let r := { r with state := .sending, attempts := r.attempts + 1, pass := some p }
  sendNextCell slot r p
    { s with
      tx.retryOrder := s.tx.retryOrder.filter fun t => t != r.ticket
      counters.retransmissions := bump s.counters.retransmissions }

/-! ## The choice at an owned slot -/

/-- The record that entered RETRY earliest (R61 step 2). -/
def earliestRetry (s : State) : Option Record :=
  match s.tx.retryOrder with
  | [] => none
  | t :: _ => findRecord t s

/-- Steps 2 to 5 of R61: no record is SENDING. -/
def chooseNew (slot : Slot) (s : State) : State :=
  match earliestRetry s with
  | some r => startRetransmission slot r s
  | none =>
    match oldestEligible .urgent s [] s.tx.records with
    | some r => startFirstPass slot r s
    | none =>
      match oldestEligible .routine s [] s.tx.records with
      | some r => startFirstPass slot r s
      | none => driveCell slot (fillerCell s) none s

/-- The choice at an owned slot with permission: R61 while ATTACHED, and R62, which starts no pass, while DETACHING. -/
def chooseCell (slot : Slot) (s : State) : State :=
  match sendingRecord s with
  | some r =>
    match r.pass with
    | some p => sendNextCell slot r p s
    | none => driveCell slot (fillerCell s) none s
  | none => if s.station.state = .attached then chooseNew slot s else driveCell slot (fillerCell s) none s

/-- Whether the part drives LDAT in a slot that starts now: with permission, in slot 0 on a master, and in the slots 1 to 15
that the active map gives its node (R17, R61, R70). -/
def drivesSlot (slot : Slot) (s : State) : Bool :=
  s.link.permission && (s.station.state == .attached || s.station.state == .detaching)
    && (if slot.val = 0 then s.station.config.role == .master
        else s.station.config.node.isSome && slotOwner slot s == s.station.config.node)

/-- What is sent in a slot that the part drives (R61, R70). -/
def transmitInSlot (slot : Slot) (s : State) : State :=
  if slot.val = 0 then driveCell slot (controlCell s) none s else chooseCell slot s

end Sys2Proof.Machine
end

