-- ==== Sys2Proof/Machine/Link.lean ====
section
/-! DEFINITION. The meanings of the link's events: boundaries, marks, clock loss, slots, passes and cells
(01_frames_slots_and_lock.md, 02_cells_on_the_link.md, 04_the_outbound_queue.md). -/
namespace Sys2Proof.Machine

/-! ## Boundaries and marks -/

/-- A driving master reaches the end of position 4095 (R5, R6). -/
def masterBoundary (s : State) : State :=
  let s := endCell s
  if s.station.state = .detaching then announceBoundary false s
  else announceBoundary true { beginCount s with link.frame := s.link.frame + 1 }

/-- MASTER_FRAME_BOUNDARY (R5, R6).  A part that is not DRIVING makes no boundary, and nothing changes. -/
def execMasterFrameBoundary (s : State) : Host.Outcome State Fault Refusal :=
  let s := settle s
  if s.link.lock = .driving then .next (masterBoundary s) else .next s

/-- A member observes a mark at a count of LCK periods (R8 to R11). -/
def observeMark (count : Nat) (s : State) : State :=
  match s.link.lock with
  | .off => s
  | .driving => s
  | .search => takeReference s
  | .verify =>
    if count = Config.periodsPerFrame ∧ s.link.controlFlag then enterLocked s else takeReference s
  | .locked =>
    let s := passTime count s
    if count = Config.periodsPerFrame then countBoundary .locked s.link.missed s
    else lockLoss .markMisplaced takeReference s
  | .coast =>
    let s := passTime count s
    if count = Config.periodsPerFrame then countBoundary .locked 0 s
    else lockLoss .markMisplaced takeReference s

/-- MARK_OBSERVED (R8 to R11, R14).  A part that is OFF or DRIVING does not look for marks (R5, R19). -/
def execMarkObserved (count : Fin 4097) (s : State) : Host.Outcome State Fault Refusal :=
  .next (observeMark count.val (settle s))

/-- No mark arrives at count 4096 (R9, R10, R11). -/
def missMark (s : State) : State :=
  match s.link.lock with
  | .off => s
  | .driving => s
  | .search => s
  | .verify => enterSearch s
  | .locked => countBoundary .coast 1 (passTime Config.periodsPerFrame s)
  | .coast =>
    let s := passTime Config.periodsPerFrame s
    if s.link.missed ≤ 1 then countBoundary .coast 2 s else lockLoss .marksMissed enterSearch s

/-- MISSED_MARK (R9, R10, R11).  A part that expects no mark misses none. -/
def execMissedMark (s : State) : Host.Outcome State Fault Refusal := .next (missMark (settle s))

/-- No LCK transition for 256 REFCLK periods (R12). -/
def loseClock (s : State) : State :=
  match s.link.lock with
  | .off => s
  | .driving => s
  | .search => s
  | .verify => enterSearch s
  | .locked => lockLoss .clockLost enterSearch s
  | .coast => lockLoss .clockLost enterSearch s

/-- CLOCK_LOSS (R12). -/
def execClockLoss (s : State) : Host.Outcome State Fault Refusal := .next (loseClock (settle s))

/-! ## Slots -/

/-- Whether the Link Timing Unit can announce the start of a slot: it announces slots in its state, and this one has not started
in the frame (R16). -/
def canStart (slot : Slot) (s : State) : Bool := announcesSlots s.link.lock && s.link.nextSlot ≤ slot.val

/-- The Link Timing Unit's part of a slot start: earlier cells have ended, the count stands at the slot, and in slot 0 the
control record is absent (R2, R16, R27). -/
def openSlot (slot : Slot) (s : State) : State :=
  let s := endCell s
  let s := if slot.val = 0 then s else decidePermission s
  let s := { s with
    link.position := some (Config.periodsPerSlot * slot.val)
    link.nextSlot := slot.val + 1
    rx.receiving := none }
  if slot.val = 0 then { s with rx.controlRecord := none } else s

/-- The start of a slot: the part drives it, or receives it (R16, R17). -/
def startSlot (slot : Slot) (s : State) : State :=
  let s := openSlot slot s
  if drivesSlot slot s then transmitInSlot slot s else { s with rx.receiving := some slot }

/-- SLOT_START (R16, R61, R62).  A slot start that the Link Timing Unit does not announce has no effect. -/
def execSlotStart (slot : Slot) (s : State) : Host.Outcome State Fault Refusal :=
  let s := settle s
  if canStart slot s then .next (startSlot slot s) else .next s

/-- PASS_END: the last cell of a pass finishes at bit time 240 (R69, R86).  With no such cell in transmission there is no such
event, and nothing changes. -/
def execPassEnd (s : State) : Host.Outcome State Fault Refusal :=
  let s := settle s
  match s.tx.cell with
  | none => .next s
  | some c =>
    if c.endsPassOf.isSome then
      .next (endCell { s with link.position := some (Config.periodsPerSlot * c.slot.val + Config.cellBits) })
    else .next s

/-- The image sampled in a slot is judged and handed off; after slot 0's the permission decision is made (R17, R24). -/
def finishSlot (slot : Slot) (image : List Byte) (s : State) : State :=
  let s := { s with
    rx.receiving := none
    link.position := some (Config.periodsPerSlot * slot.val + Config.cellBits) }
  let s := judgeImage slot image s
  if slot.val = 0 then decidePermission s else s

/-- CELL_RECEIVED (R24).  The slot is the one whose reception is in progress; an image of an abandoned slot is not examined. -/
def execCellReceived (image : List Byte) (s : State) : Host.Outcome State Fault Refusal :=
  let s := settle s
  match s.rx.receiving with
  | none => .next s
  | some slot => .next (finishSlot slot image s)

end Sys2Proof.Machine
end

