-- ==== Sys2Proof/Machine/Resets.lean ====
section
/-! DEFINITION. The meanings of the resets and of the end of the start-up interval (R164, R165, R170, R171). -/
namespace Sys2Proof.Machine

/-- RESET_TAKES_EFFECT: the transmission of the RESET reply ends, and every block takes its reset values (R164, R171).  Without
such a reply in transmission there is no such event, and nothing changes.  DESIGN CHOICE (log entry 24): a character whose start bit
came before this moment and whose stop bit comes after it stands before this command, and what it does is gone with the reset. -/
def execResetTakesEffect (s : State) : Host.Outcome State Fault Refusal :=
  match s.host.sending with
  | none => .next s
  | some r => if r.resets then .next (requestReset s) else .next s

/-- PIN_RESET_ASSERT: RSTN goes low (R165). -/
def execPinResetAssert (s : State) : Host.Outcome State Fault Refusal := .next (holdInReset s)

/-- PIN_RESET_RELEASE: RSTN goes high; the straps are sampled, every block holds its pin-reset values and the start-up interval
begins (R128, R165, R170).  With RSTN high already there is no such event, and nothing changes. -/
def execPinResetRelease (straps : BitVec 2) (s : State) : Host.Outcome State Fault Refusal :=
  if s.phase = .held then .next (resetState .startup straps s) else .next s

/-- STARTUP_INTERVAL_END: the Host Port begins to examine characters, in IDLE (R170).  DESIGN CHOICE (log entry 24): a character whose
start bit falls within the interval stands before this command, and is discarded there. -/
def execStartupIntervalEnd (s : State) : Host.Outcome State Fault Refusal :=
  if s.phase = .startup then .next { s with phase := .running, host.receive := .idle } else .next s

end Sys2Proof.Machine
end

