-- ==== Sys2Proof/Machine/Dispatch.lean ====
section
/-! DEFINITION. The meaning of every command: one arm per constructor. -/
namespace Sys2Proof.Machine

def exec (i : Instr) (s : State) : Host.Outcome State Fault Refusal :=
  match i with
  | .ident seq params => Sys2Proof.Machine.execIdent seq params s
  | .status seq params => Sys2Proof.Machine.execStatus seq params s
  | .configure seq params => Sys2Proof.Machine.execConfigure seq params s
  | .attach seq params => Sys2Proof.Machine.execAttach seq params s
  | .detach seq params => Sys2Proof.Machine.execDetach seq params s
  | .mapStage seq params => Sys2Proof.Machine.execMapStage seq params s
  | .mapCommit seq params => Sys2Proof.Machine.execMapCommit seq params s
  | .mapWithdraw seq params => Sys2Proof.Machine.execMapWithdraw seq params s
  | .mapRead seq params => Sys2Proof.Machine.execMapRead seq params s
  | .send seq params => Sys2Proof.Machine.execSend seq params s
  | .cancel seq params => Sys2Proof.Machine.execCancel seq params s
  | .queryTicket seq params => Sys2Proof.Machine.execQueryTicket seq params s
  | .fetchMessage seq params => Sys2Proof.Machine.execFetchMessage seq params s
  | .fetchEvent seq params => Sys2Proof.Machine.execFetchEvent seq params s
  | .counters seq params => Sys2Proof.Machine.execCounters seq params s
  | .peerRead seq params => Sys2Proof.Machine.execPeerRead seq params s
  | .reset seq params => Sys2Proof.Machine.execReset seq params s
  | .unknownKindRequest kind seq params => Sys2Proof.Machine.execUnknownKindRequest kind seq params s
  | .requestReceived frame => Sys2Proof.Machine.execRequestReceived frame s
  | .replyTransmissionEnd => Sys2Proof.Machine.execReplyTransmissionEnd s
  | .hostFrameError fault => Sys2Proof.Machine.execHostFrameError fault s
  | .gapTimeout => Sys2Proof.Machine.execGapTimeout s
  | .resetTakesEffect => Sys2Proof.Machine.execResetTakesEffect s
  | .pinResetAssert => Sys2Proof.Machine.execPinResetAssert s
  | .pinResetRelease straps => Sys2Proof.Machine.execPinResetRelease straps s
  | .startupIntervalEnd => Sys2Proof.Machine.execStartupIntervalEnd s
  | .masterFrameBoundary => Sys2Proof.Machine.execMasterFrameBoundary s
  | .markObserved count => Sys2Proof.Machine.execMarkObserved count s
  | .missedMark => Sys2Proof.Machine.execMissedMark s
  | .clockLoss => Sys2Proof.Machine.execClockLoss s
  | .slotStart slot => Sys2Proof.Machine.execSlotStart slot s
  | .passEnd => Sys2Proof.Machine.execPassEnd s
  | .cellReceived image => Sys2Proof.Machine.execCellReceived image s
  | .lifetimeExpiry ticket => Sys2Proof.Machine.execLifetimeExpiry ticket s
  | .ackTimerExpiry ticket => Sys2Proof.Machine.execAckTimerExpiry ticket s
  | .reassemblyTimeout source => Sys2Proof.Machine.execReassemblyTimeout source s
  | .mapSwitch => Sys2Proof.Machine.execMapSwitch s
  | .detachCompletion => Sys2Proof.Machine.execDetachCompletion s
  | .leadByte value fault => Sys2Proof.Machine.execLeadByte value fault s

end Sys2Proof.Machine
end

