-- ==== Sys2Proof/Safety.lean ====
section
/-! DEFINITION. What counts as a sound state of the part: the laws that the manual numbers 1 to 9, and the relations between its
blocks that the chapters state.  Each group below (`outboundSound`, `receiveAccounts`, `stationLinkSound`, `hostSound`) is meant
to be kept by every step from every state that has it. -/
namespace Sys2Proof.Safety

open Sys2Proof.Machine

/-! ## Places, tickets and outbound blocks -/

/-- Law 1 (R118): the held count is the outbound records plus the result events, and at most 32. -/
abbrev resultPlaces (s : State) : Prop :=
  s.events.heldCount = s.tx.records.length + resultCount s ∧ s.events.heldCount ≤ 32

/-- Law 2 (R119): the non-result count is the non-result events held, and at most 16. -/
abbrev nonResultPlaces (s : State) : Prop :=
  s.events.nonResultCount = nonResultEvents s ∧ s.events.nonResultCount ≤ 16

/-- No two records hold the same ticket, and none holds ticket 0 (R55, R59). -/
abbrev ticketsDistinct (s : State) : Prop :=
  (s.tx.records.map fun r => r.ticket).Nodup ∧ (∀ r ∈ s.tx.records, r.ticket ≠ 0) ∧ s.tx.nextTicket ≠ 0

/-- Law 4, outbound half (R56): free blocks and the blocks of the records make up the pool of 64. -/
abbrev outboundBlocks (s : State) : Prop :=
  s.tx.freeBlocks + (s.tx.records.map Record.blocks).sum = 64

/-- The accounts of the outbound queue and the event queue. -/
abbrev queueAccounts (s : State) : Prop :=
  resultPlaces s ∧ nonResultPlaces s ∧ ticketsDistinct s ∧ outboundBlocks s

/-! ## The receive side -/

/-- Law 3 (R104): mailbox entries and ASSEMBLING contexts never exceed 16. -/
abbrev inboundPlaces (s : State) : Prop := s.rx.mailbox.length + assemblingCount s ≤ 16

/-- Law 4, inbound half (R101): free blocks and the blocks of entries and contexts make up the pool of 96. -/
abbrev inboundBlocks (s : State) : Prop :=
  s.rx.freeBlocks + (s.rx.mailbox.map Entry.blocks).sum + (s.rx.contexts.toList.map Context.blocks).sum = 96

/-- An ASSEMBLING context holds the whole cells before its next index, and that index is one of its message (R99, R106). -/
def assemblySound : Context → Bool
  | .assembling a => a.bytes.length == 16 * a.nextIndex && a.nextIndex < cellCount a.total && a.total ≤ 128
  | .idle => true
  | .discarding _ => true

/-- Every context is sound (R99). -/
abbrev contextsSound (s : State) : Prop := s.rx.contexts.toList.all assemblySound = true

/-- Law 9 (R81): no two entries of the owed-acknowledgement list are for the same source. -/
abbrev owedOnce (s : State) : Prop := (s.rx.owed.map fun o => o.source).Nodup

/-- The accounts of the receive side. -/
abbrev receiveAccounts (s : State) : Prop :=
  inboundPlaces s ∧ inboundBlocks s ∧ contextsSound s ∧ owedOnce s

/-! ## Passes -/

/-- Two acknowledged records in flight share no destination (law 6). -/
abbrev apart (a b : Record) : Prop :=
  a.ackreq = true → b.ackreq = true → a.inFlight = true → b.inFlight = true → meets a.dest b.dest = false

/-- What holds of each outbound record: it holds a pass exactly while SENDING; its pending set lies in its destination set, is
empty for an unacknowledged record, and is not empty in AWAITING and RETRY, where only acknowledged records stand (R54, R84,
R152). -/
abbrev recordSound (r : Record) : Prop :=
  (r.pass.isSome = true ↔ r.state = .sending)
    ∧ without r.pendingSet r.dest = 0
    ∧ (r.ackreq = false → r.pendingSet = 0)
    ∧ (r.state = .awaiting ∨ r.state = .retry → r.ackreq = true ∧ r.pendingSet ≠ 0)

/-- Law 5 (R64): at most one record is SENDING. -/
abbrev onePass (s : State) : Prop := (s.tx.records.filter fun r => r.state == .sending).length ≤ 1

/-- The RETRY order lists each RETRY record once and no other (R55, R87, R97). -/
abbrev retryListed (s : State) : Prop :=
  s.tx.retryOrder.Perm ((s.tx.records.filter fun r => r.state == .retry).map fun r => r.ticket)

/-- The ticket of the record whose pass ends with the cell being driven (R69). -/
def passEnding (s : State) : Option Ticket := s.tx.cell.bind fun c => c.endsPassOf

/-- The cell that ends a pass is that of a SENDING record (R69). -/
abbrev lastCellSending (s : State) : Prop :=
  (passEnding s).all (fun t => s.tx.records.any fun r => r.ticket == t && r.state == .sending) = true

/-- Laws 5, 6 and 7 of the part and what upholds them. -/
abbrev passesSound (s : State) : Prop :=
  (s.tx.records.map fun r => r.ticket).Nodup ∧ (∀ r ∈ s.tx.records, recordSound r) ∧ s.tx.records.Pairwise apart ∧ onePass s
    ∧ retryListed s ∧ lastCellSending s

/-- The outbound side: its accounts and its passes.  The passes rest on the accounts, since a ticket is found free within 32 steps
only while fewer than 32 records are held (R59). -/
abbrev outboundSound (s : State) : Prop := queueAccounts s ∧ passesSound s

/-! ## Station, link and map -/

/-- The lock states of a member (R8 to R11). -/
abbrev memberLock (l : LockState) : Prop := l = .search ∨ l = .verify ∨ l = .locked ∨ l = .coast

/-- How the station state, the role and the lock state go together (R4, R8, R157, R159, R161). -/
abbrev stationSound (s : State) : Prop :=
  (s.link.lock = .off ↔ s.station.state = .unconfigured ∨ s.station.state = .detached)
    ∧ (s.link.lock = .driving → s.station.config.role = .master)
    ∧ (memberLock s.link.lock → s.station.config.role = .member)
    ∧ (s.station.state = .detaching → s.link.lock = .driving ∨ s.link.lock = .locked ∨ s.link.lock = .coast)
    ∧ (s.station.state ≠ .unconfigured → s.station.config.node.isSome = true)

/-- What the Link Timing Unit holds in each lock state: the missed count is 1 or 2 in COAST and 0 elsewhere; permission only in
DRIVING and LOCKED; no position in OFF and SEARCH; cells are received and driven only while slots are announced; a decision is
due only in LOCKED and COAST (R11, R16, R17, R19, R24). -/
abbrev linkSound (s : State) : Prop :=
  (if s.link.lock = .coast then s.link.missed = 1 ∨ s.link.missed = 2 else s.link.missed = 0)
    ∧ (s.link.permission = true → s.link.lock = .driving ∨ s.link.lock = .locked)
    ∧ (s.link.position = none ↔ s.link.lock = .off ∨ s.link.lock = .search)
    ∧ (s.rx.receiving.isSome = true → announcesSlots s.link.lock = true)
    ∧ (s.tx.cell.isSome = true → s.link.lock = .driving ∨ s.link.lock = .locked)
    ∧ (s.link.decisionDue = true → s.link.lock = .locked ∨ s.link.lock = .coast)

/-- A pending map exists only while ATTACHED or DETACHING, and a member commits nothing (R39, R53). -/
abbrev mapSound (s : State) : Prop :=
  (s.map.pendingMap.isSome = true → s.station.state = .attached ∨ s.station.state = .detaching)
    ∧ (s.station.config.role = .member → s.map.outcome = .nothing)

/-- A map switch is outstanding once, and only for a pending map whose effective frame has begun (R41, R48). -/
def switchSound (s : State) : Bool :=
  !s.due.contains .mapSwitch
    || (s.due.count .mapSwitch == 1 && s.map.pendingMap.map (fun p => p.effective) == some s.link.frame)

/-- Only a DETACHING station has a completion outstanding, and only an attached one has boundary work (R15, R161); an outstanding switch
has its pending map; and the Transmit Scheduler has begun its work there only while the completion is outstanding (R163). -/
abbrev workSound (s : State) : Prop :=
  (.completion ∈ s.due → s.station.state = .detaching)
    ∧ (s.due ≠ [] → s.station.state = .attached ∨ s.station.state = .detaching)
    ∧ switchSound s = true
    ∧ (s.schedulerBegun = true → .completion ∈ s.due)

/-- Before the end of the start-up interval the part is UNCONFIGURED (R170). -/
abbrev startupSound (s : State) : Prop := s.phase = .startup → s.station.state = .unconfigured

/-- Station, link and map; while RSTN is low the part does nothing and only the link state counts (R165). -/
abbrev stationLinkSound (s : State) : Prop :=
  if s.phase = .held then s.link = LinkTiming.reset ∧ s.tx.cell = none ∧ s.rx.receiving = none ∧ s.due = []
  else stationSound s ∧ linkSound s ∧ mapSound s ∧ workSound s ∧ startupSound s

/-! ## The host line -/

/-- A frame in progress is one that more characters are to come of: its length byte, once taken, is in its range, and the frame has
fewer characters than that length gives it (R129, R132). -/
def frameOpen : ReceiveState → Bool
  | .idle => true
  | .inFrame [] => true
  | .inFrame (l :: rest) => 2 ≤ l.toNat && l.toNat ≤ 250 && rest.length < l.toNat + 2

/-- A request waits only behind a reply in transmission; that reply is the kept reply; a frame in progress is not over; and the part
receives and answers only in normal running (R132, R134, R136, R170). -/
abbrev hostSound (s : State) : Prop :=
  (s.host.waiting.isSome = true → s.host.sending.isSome = true)
    ∧ s.host.sending.all (fun r => s.host.kept == some r.reply) = true
    ∧ frameOpen s.host.receive = true
    ∧ (s.phase ≠ .running → s.host.sending = none ∧ s.host.receive = .idle)

end Sys2Proof.Safety
end

