-- ==== Sys2Proof/Claims.lean ====
section
/-! DEFINITION. The terms the statements are written in.  They are spelled from the manual's rules, not through the operations of
the model that they are used to judge. -/
namespace Sys2Proof.Claims

open Sys2Proof.Machine

/-! ## Commands -/

/-- The command that a request of a known kind is. -/
def command : RequestKind → Byte → List Byte → Instr
  | .ident => .ident
  | .status => .status
  | .configure => .configure
  | .attach => .attach
  | .detach => .detach
  | .mapStage => .mapStage
  | .mapCommit => .mapCommit
  | .mapWithdraw => .mapWithdraw
  | .mapRead => .mapRead
  | .send => .send
  | .cancel => .cancel
  | .queryTicket => .queryTicket
  | .fetchMessage => .fetchMessage
  | .fetchEvent => .fetchEvent
  | .counters => .counters
  | .peerRead => .peerRead
  | .reset => .reset

/-- The command that does an item of boundary work. -/
def workCommand : Work → Instr
  | .lifetime t => .lifetimeExpiry t
  | .ackTimer t => .ackTimerExpiry t
  | .reassembly n => .reassemblyTimeout n
  | .mapSwitch => .mapSwitch
  | .completion => .detachCompletion

/-- An item of the Transmit Scheduler's boundary work (R71, R87). -/
abbrev ofTransmitScheduler (w : Work) : Prop := (∃ k, w = .lifetime k) ∨ ∃ k, w = .ackTimer k

/-- The events of the link: whatever boundary work is left comes before them (R63; log entry 2). -/
def settlesFirst : Instr → Bool
  | .masterFrameBoundary | .markObserved _ | .missedMark | .clockLoss | .slotStart _ | .passEnd | .cellReceived _ => true
  | .ident _ _ | .status _ _ | .configure _ _ | .attach _ _ | .detach _ _ | .mapStage _ _ | .mapCommit _ _ | .mapWithdraw _ _
  | .mapRead _ _ | .send _ _ | .cancel _ _ | .queryTicket _ _ | .fetchMessage _ _ | .fetchEvent _ _ | .counters _ _
  | .peerRead _ _ | .reset _ _ | .unknownKindRequest _ _ _ | .requestReceived _ | .replyTransmissionEnd | .hostFrameError _
  | .gapTimeout | .leadByte _ _ | .resetTakesEffect | .pinResetAssert | .pinResetRelease _ | .startupIntervalEnd
  | .lifetimeExpiry _ | .ackTimerExpiry _ | .reassemblyTimeout _ | .mapSwitch | .detachCompletion => false

/-- The request that a command is. -/
def requestOf : Instr → Option HostRequest
  | .ident q ps => some ⟨0x01, q, ps⟩
  | .status q ps => some ⟨0x02, q, ps⟩
  | .configure q ps => some ⟨0x03, q, ps⟩
  | .attach q ps => some ⟨0x04, q, ps⟩
  | .detach q ps => some ⟨0x05, q, ps⟩
  | .mapStage q ps => some ⟨0x10, q, ps⟩
  | .mapCommit q ps => some ⟨0x11, q, ps⟩
  | .mapWithdraw q ps => some ⟨0x12, q, ps⟩
  | .mapRead q ps => some ⟨0x13, q, ps⟩
  | .send q ps => some ⟨0x20, q, ps⟩
  | .cancel q ps => some ⟨0x21, q, ps⟩
  | .queryTicket q ps => some ⟨0x22, q, ps⟩
  | .fetchMessage q ps => some ⟨0x30, q, ps⟩
  | .fetchEvent q ps => some ⟨0x31, q, ps⟩
  | .counters q ps => some ⟨0x40, q, ps⟩
  | .peerRead q ps => some ⟨0x41, q, ps⟩
  | .reset q ps => some ⟨0x7F, q, ps⟩
  | .unknownKindRequest kind q ps => some ⟨kind, q, ps⟩
  | .requestReceived _ | .replyTransmissionEnd | .hostFrameError _ | .gapTimeout | .leadByte _ _ | .resetTakesEffect
  | .pinResetAssert | .pinResetRelease _ | .startupIntervalEnd | .masterFrameBoundary | .markObserved _ | .missedMark
  | .clockLoss | .slotStart _ | .passEnd | .cellReceived _ | .lifetimeExpiry _ | .ackTimerExpiry _ | .reassemblyTimeout _
  | .mapSwitch | .detachCompletion => none

/-- The commands that arise from characters on HRX. -/
def onHrx : Instr → Bool
  | .requestReceived _ | .hostFrameError _ | .gapTimeout | .leadByte _ _ => true
  | c => (requestOf c).isSome

/-! ## Executed requests -/

/-- A request of this sequence is executed when its characters have been received: the part runs, its lead byte has opened a frame
(R131), no reply is being transmitted, nothing waits, and a kept reply has another sequence (R134).  Boundary work may be left: the
request is taken before it (R125). -/
abbrev executesNow (seq : Byte) (s : State) : Prop :=
  s.phase = .running ∧ s.host.receive = .inFrame [] ∧ s.host.sending = none ∧ s.host.waiting = none
    ∧ s.host.kept.all (fun k => k.seq != seq) = true

/-- `s` with the reply of an executed request kept and its transmission begun with REPLAY clear (R134, R135); `resets` marks the
reply of a RESET. -/
def answeredWith (resets : Bool) (kind seq : Byte) (status : Status) (data : List Byte) (s : State) : State :=
  let reply : Reply := { kind := kind, seq := seq, status := status, data := data }
  { s with
    host :=
      { receive := .idle, kept := some reply, waiting := none, overrun := false, rate := s.host.rate
        sending := some { reply := reply, replay := false, overrun := s.host.overrun, resets := resets } } }

/-- `s` with the reply of an executed request that is not a RESET. -/
def answered (kind seq : Byte) (status : Status) (data : List Byte) (s : State) : State :=
  answeredWith false kind seq status data s

/-- The status byte of a reply: the table of R130 from its first row on. -/
def statusByte (status : Status) : Byte :=
  match status with
  | .ok => 0x00 | .empty => 0x01 | .badLength => 0x02 | .badParam => 0x03 | .unknownKind => 0x04 | .wrongState => 0x05
  | .notMaster => 0x06 | .queueFull => 0x07 | .poolFull => 0x08 | .tooLong => 0x09 | .noSuchTicket => 0x0A
  | .cancelPending => 0x0B | .detachPending => 0x0C | .mapPending => 0x0D | .tooLate => 0x0E | .nothingPending => 0x0F
  | .queueNotEmpty => 0x10

/-- The body lengths that suit a kind (R140 step 2, and the table of 09_host_requests.md). -/
def lengthFits (kind : RequestKind) (L : Nat) : Prop :=
  match kind with
  | .ident | .status | .attach | .detach | .mapWithdraw | .mapRead | .fetchMessage | .fetchEvent | .peerRead | .reset => L = 2
  | .mapCommit | .counters => L = 3
  | .cancel | .queryTicket => L = 4
  | .configure => L = 8
  | .mapStage => ∃ n, L = 2 * n
  | .send => 9 ≤ L

/-- The table of R141, with the order its last paragraph gives: UNCONFIGURED first, then the role, then the other states.  None
where the request is taken. -/
def turnedAway (kind : RequestKind) (state : StationState) (role : Role) : Option Status :=
  match kind, state with
  | .ident, _ | .status, _ | .mapRead, _ | .queryTicket, _ | .fetchMessage, _ | .fetchEvent, _ | .counters, _ | .peerRead, _
  | .reset, _ => none
  | .configure, .unconfigured | .configure, .detached => none
  | .configure, .attached | .configure, .detaching => some .wrongState
  | .attach, .detached => none
  | .attach, _ => some .wrongState
  | .detach, .attached | .detach, .detaching => none
  | .detach, _ => some .wrongState
  | .send, .detached | .send, .attached => none
  | .send, _ => some .wrongState
  | .cancel, .unconfigured => some .wrongState
  | .cancel, _ => none
  | .mapStage, .unconfigured | .mapWithdraw, .unconfigured | .mapCommit, .unconfigured => some .wrongState
  | .mapStage, _ | .mapWithdraw, _ => if role = .member then some .notMaster else none
  | .mapCommit, .detaching => if role = .member then some .notMaster else some .wrongState
  | .mapCommit, _ => if role = .member then some .notMaster else none

/-! ## Counters, sets and codes -/

/-- A 16-bit counter after one occurrence (R166). -/
def up (c : Half) : Half := BitVec.ofNat 16 (min 65535 (c.toNat + 1))

/-- A loss count after one loss: it stays at 255 (R105, R121). -/
def upByte (c : Byte) : Byte := BitVec.ofNat 8 (min 255 (c.toNat + 1))

/-- `s` after a frame error: the frame is discarded and counted (R132). -/
def inError (s : State) : State :=
  { s with
    host := { s.host with receive := .idle }
    counters := { s.counters with frameErrors := up s.counters.frameErrors } }

/-- `s` with these characters taken after the lead byte of a frame (R131, R132). -/
def inFrame (taken : List Byte) (s : State) : State := { s with host := { s.host with receive := .inFrame taken } }

/-- Whether two sets share a node. -/
abbrev share (a b : NodeSet) : Prop := ∃ n : Node, a.getLsbD n.val = true ∧ b.getLsbD n.val = true

/-- The map code of an owner (R34). -/
def ownerCode : Owner → Nat
  | none => 15
  | some n => n.val

/-- The `k`-th nibble of a list of owners that begins at byte `base`: two owners per byte, the earlier in the high nibble (R149). -/
def nibbleAt (data : List Byte) (base k : Nat) : Nat :=
  if k % 2 = 0 then (data.getD (base + k / 2) 0).toNat / 16 else (data.getD (base + k / 2) 0).toNat % 16

/-- The byte `i` of a reply's data, as a number. -/
def byteAt (data : List Byte) (i : Nat) : Nat := (data.getD i 0).toNat

/-- The two bytes from `i` on, the first most significant, as a number. -/
def pairAt (data : List Byte) (i : Nat) : Nat := 256 * byteAt data i + byteAt data (i + 1)

/-- Bit `k` of a flag byte, as a number. -/
def bit (b : Bool) (k : Nat) : Nat := if b then 2 ^ k else 0

/-- Blocks of 16 bytes that a payload takes: its length divided by 16 rounded up (R56, R101). -/
def blocks (length : Nat) : Nat := if length % 16 = 0 then length / 16 else length / 16 + 1

/-- Cells of a message (R20). -/
def cells (length : Nat) : Nat := if length = 0 then 1 else blocks length

/-- The next value of the ticket counter (R59). -/
def after (t : Ticket) : Ticket := if t.toNat = 65535 then 1 else BitVec.ofNat 16 (t.toNat + 1)

/-- The value of the ticket counter `k` steps on (R59). -/
def stepsOn (t : Ticket) : Nat → Ticket
  | 0 => t
  | k + 1 => after (stepsOn t k)

/-! ## Events and records -/

/-- `s` with an event record at the tail of the queue (R117, R120): the pending lost count rides in it and goes to 0. -/
def placed (kind : EventKind) (s : State) : State :=
  { s with
    events :=
      { records := s.events.records ++ [{ kind := kind, lostBefore := s.events.pendingLost, frame := s.link.frame }]
        heldCount := s.events.heldCount, nonResultCount := s.events.nonResultCount, pendingLost := 0 } }

/-- `s` after a non-result event is offered (R121). -/
def offered (kind : EventKind) (s : State) : State :=
  if s.events.nonResultCount < 16 then
    { placed kind s with events.nonResultCount := s.events.nonResultCount + 1 }
  else
    { s with
      counters.eventsLost := up s.counters.eventsLost
      events.pendingLost := upByte s.events.pendingLost }

/-- The acknowledged set a record's result carries (R73). -/
def ackedSet (r : Record) : NodeSet := if r.ackreq then r.dest &&& ~~~r.pendingSet else 0

/-- The result event of a record (R73). -/
def resultOf (r : Record) (outcome : ResultOutcome) : EventKind :=
  .result r.ticket outcome r.attempts r.dest (ackedSet r)

/-- `s` after a record produced its result: the result placed, the record gone from the queue and from the RETRY order, its blocks
back in the pool (R73). -/
def ended (r : Record) (outcome : ResultOutcome) (s : State) : State :=
  { placed (resultOf r outcome) s with
    tx.records := s.tx.records.filter (fun q => q.ticket != r.ticket)
    tx.retryOrder := s.tx.retryOrder.filter (fun t => t != r.ticket)
    tx.freeBlocks := s.tx.freeBlocks + blocks r.payload.length }

/-- `s` with the record of `r`'s ticket now `r`, in its place (R55). -/
def replaced (r : Record) (s : State) : State :=
  { s with tx.records := s.tx.records.map (fun q => if q.ticket = r.ticket then r else q) }

/-- The record that a ticket names (R55). -/
abbrev named (t : Ticket) (r : Record) (s : State) : Prop := s.tx.records.find? (fun q => q.ticket == t) = some r

/-- In SENDING, AWAITING or RETRY. -/
abbrev begun (r : Record) : Prop := r.state = .sending ∨ r.state = .awaiting ∨ r.state = .retry

/-- The tickets of the results in a list of events, in order. -/
def resultTickets (events : List EventRecord) : List Ticket :=
  events.filterMap fun e => match e.kind with
    | .result t _ _ _ _ => some t
    | .linkUp _ | .linkDown _ | .mapApplied _ _ | .mapResync _ _ | .peerEpoch _ _ _ | .detached _ => none

/-! ## Frame boundaries -/

/-- A record across a frame boundary (R71, R87).  A lifetime or ack timer that runs out there is left at its last value until the
record's own expiry is taken. -/
def ticked (r : Record) : Record :=
  { r with
    lifetime := if r.state = .queued ∧ 2 ≤ r.lifetime.toNat then r.lifetime - 1 else r.lifetime
    ackTimer := if r.state = .awaiting ∧ 2 ≤ r.ackTimer then r.ackTimer - 1 else r.ackTimer }

/-- A context across a frame boundary (R110). -/
def aged : Context → Context
  | .idle => .idle
  | .assembling a => .assembling { a with frames := a.frames + 1 }
  | .discarding frames => .discarding (frames + 1)

/-- The frames since the last cell of a context have reached 16 (R110). -/
def gone16 : Context → Prop
  | .idle => False
  | .assembling a => 16 ≤ a.frames
  | .discarding frames => 16 ≤ frames

/-- The map that a control payload carries: fifteen owner nibbles, code 15 for no owner, and its generation (R44). -/
abbrev carries (c : ControlContent) (m : SlotMap) : Prop :=
  m.generation = c.generation ∧ ∀ k : Fin 15, (c.owners.getD k.val 15).toNat = ownerCode (m.owners.get k)

/-- The sixteen bytes read back as the control content of a frame for a master of a rate code, an active map and perhaps a pending
map: in odd frames of a pending period they carry the pending map, and in all others the active one (R42). -/
abbrev contentFor (frame : Half) (rate : BitVec 2) (active : SlotMap) (pending : Option PendingMap) (bytes : List Byte) : Prop :=
  let c := readContent bytes
  bytes.length = 16 ∧ c.frame = frame ∧ c.current = active.generation ∧ c.rate.toNat = rate.toNat
    ∧ c.pendingExists = pending.isSome ∧ c.effective = (match pending with | none => 0 | some p => p.effective)
    ∧ (c.carriesPending = true ↔ pending.isSome = true ∧ frame.toNat % 2 = 1)
    ∧ (c.carriesPending = false → carries c active)
    ∧ ∀ p, pending = some p → c.carriesPending = true → carries c p.map

/-- The active generation (R35). -/
def generationOf (s : State) : Option Byte := s.map.active.map fun m => m.generation

/-- What an announced boundary does to the Transmit Scheduler, the Receive Unit and Station Control, from `s` to `t`: lifetimes, ack
timers and contexts count, and what runs out is listed as work, with a completion if the station is DETACHING (R15, R71, R87, R110,
R161).  It leaves everything else but the Map Unit as it was. -/
abbrev ticksAt (s t : State) : Prop :=
  t.tx = { s.tx with records := s.tx.records.map ticked }
    ∧ (∀ n : Node, t.rx.contexts.get n = aged (s.rx.contexts.get n))
    ∧ t.rx = { s.rx with contexts := t.rx.contexts }
    ∧ (∀ k, Work.lifetime k ∈ t.due ↔ ∃ r ∈ s.tx.records, r.ticket = k ∧ r.state = .queued ∧ r.lifetime = 1)
    ∧ (∀ k, Work.ackTimer k ∈ t.due ↔ ∃ r ∈ s.tx.records, r.ticket = k ∧ r.state = .awaiting ∧ r.ackTimer ≤ 1)
    ∧ (∀ n, Work.reassembly n ∈ t.due ↔ gone16 (t.rx.contexts.get n))
    ∧ (Work.completion ∈ t.due ↔ s.station.state = .detaching)
    ∧ t.schedulerBegun = false
    ∧ t.link = s.link ∧ t.station = s.station ∧ t.events = s.events ∧ t.host = s.host ∧ t.counters = s.counters
    ∧ t.phase = s.phase ∧ t.choices = s.choices

/-- What an announced boundary does, from the state `s` in which the Link Timing Unit holds the number of the frame that begins, to
`t`: the blocks count, what runs out or falls due is listed as work, and unless the map is to switch the Map Unit sets the frame
generation (R15, R35, R41, R48). -/
abbrev announces (s t : State) : Prop :=
  ticksAt s t
    ∧ (Work.mapSwitch ∈ t.due ↔ ∃ p, s.map.pendingMap = some p ∧ p.effective = s.link.frame)
    ∧ (if Work.mapSwitch ∈ t.due then t.map = s.map
        else t.map = { s.map with frameGeneration := generationOf s, content := t.map.content })
    ∧ (s.station.config.role = .member → t.map.content = s.map.content)

/-- `s` with the count begun anew at a boundary or a reference mark (R2, R9, R10, R27). -/
def counting (s : State) : State :=
  { s with
    link.position := some 0
    link.nextSlot := 0
    link.controlFlag := false
    rx.controlRecord := none
    rx.receiving := none }

/-- `s` with a mark taken as the reference of VERIFY (R8, R9, R35). -/
def referenced (s : State) : State :=
  { counting s with
    link.lock := .verify
    link.missed := 0
    link.permission := false
    link.decisionDue := false
    map.frameGeneration := generationOf s }

/-- `s` with the member in SEARCH (R8, R9, R12). -/
def searching (s : State) : State :=
  { s with
    link.lock := .search
    link.position := none
    link.missed := 0
    link.controlFlag := false
    link.permission := false
    link.decisionDue := false
    rx.receiving := none }

/-- `s` with a member's boundary counted into a lock state: the next frame number, and its permission decision still to come (R10,
R11, R17). -/
def countedInto (lock : LockState) (missed : Nat) (s : State) : State :=
  { counting s with
    link.lock := lock
    link.missed := missed
    link.frame := s.link.frame + 1
    link.permission := false
    link.decisionDue := true }

/-- What makes a member lose lock, and the cause it reports (R10 to R13): in LOCKED and COAST a mark below count 4096 and a stopped
clock, and in COAST the third missed mark. -/
abbrev losesLock (c : Instr) (cause : LossCause) (s : State) : Prop :=
  ((s.link.lock = .locked ∨ s.link.lock = .coast)
      ∧ ((∃ count : Fin 4097, c = .markObserved count ∧ count.val < 4096 ∧ cause = .markMisplaced)
        ∨ (c = .clockLoss ∧ cause = .clockLost)))
    ∨ (s.link.lock = .coast ∧ 2 ≤ s.link.missed ∧ c = .missedMark ∧ cause = .marksMissed)

/-- The pass in progress has not ended by the time of a mark or of its absence: the cell being driven is not the last of a pass, or
the mark comes before the end of its bit time 239 (R3, R69). -/
abbrev beforePassEnd (c : Instr) (s : State) : Prop :=
  ∀ cell, s.tx.cell = some cell → cell.endsPassOf.isSome = true →
    c ≠ .missedMark ∧ ∀ count : Fin 4097, c = .markObserved count → count.val < 256 * cell.slot.val + 240

/-! ## Choosing what to send -/

/-- R60: whether a record with these older ones may start its first pass. -/
abbrev mayStart (older : List Record) (m : Record) (s : State) : Prop :=
  m.state = .queued
    ∧ (∀ o ∈ older, o.cls = m.cls → ¬share o.dest m.dest)
    ∧ (m.ackreq = true → ∀ o ∈ s.tx.records, o.ackreq = true → begun o → ¬share o.dest m.dest)
    ∧ (m.ackreq = true →
        ∃ k : Fin 16, ∀ n : Node, m.dest.getLsbD n.val = true → (s.tx.openSets.get n).getLsbD k.val = false)

/-- The oldest record of a class that may start, with the records older than it in front (R61). -/
abbrev oldestOf (cls : MsgClass) (older : List Record) (m : Record) (younger : List Record) (s : State) : Prop :=
  s.tx.records = older ++ m :: younger ∧ m.cls = cls ∧ mayStart older m s
    ∧ ∀ before q rest, older = before ++ q :: rest → q.cls = cls → ¬mayStart before q s

/-- No record of a class may start (R61). -/
abbrev noneOf (cls : MsgClass) (s : State) : Prop :=
  ∀ older q younger, s.tx.records = older ++ q :: younger → q.cls = cls → ¬mayStart older q s

/-- No record is SENDING. -/
abbrev noneSending (s : State) : Prop := ∀ r ∈ s.tx.records, r.state ≠ .sending

/-- The slot starts now in a part that may announce it: no boundary work is left, the slot lies ahead in the frame, nothing is being
driven, and a permission decision is open only at slot 0, before whose image it is not made (R16, R17). -/
abbrev startsNow (slot : Slot) (s : State) : Prop :=
  s.due = [] ∧ announcesSlots s.link.lock = true ∧ s.link.nextSlot ≤ slot.val ∧ s.tx.cell = none
    ∧ (s.link.decisionDue = false ∨ slot.val = 0)

/-- R28, R34: the active map gives a slot of 1 to 15 to a node. -/
abbrev ownedBy (slot : Slot) (n : Node) (s : State) : Prop :=
  ∃ k : Fin 15, slot.val = k.val + 1 ∧ (s.map.active.map fun m => m.owners.get k) = some (some n)

/-- Slots 1 to 15: the active map gives the slot to this part's node, which may transmit in it (R17, R34, R61). -/
abbrev mayDrive (slot : Slot) (s : State) : Prop :=
  s.link.permission = true ∧ (s.station.state = .attached ∨ s.station.state = .detaching)
    ∧ ∃ n : Node, s.station.config.node = some n ∧ ownedBy slot n s

/-- Slot 0 of a master that may transmit (R17, R70). -/
abbrev mayDriveControl (s : State) : Prop :=
  s.link.permission = true ∧ (s.station.state = .attached ∨ s.station.state = .detaching) ∧ s.station.config.role = .master

/-- `s` with the Link Timing Unit's count at the start of a slot (R2, R16, R27). -/
def atSlot (slot : Slot) (s : State) : State :=
  { s with
    link.position := some (256 * slot.val)
    link.nextSlot := slot.val + 1
    rx.receiving := none
    rx.controlRecord := if slot.val = 0 then none else s.rx.controlRecord }

/-- `s` driving a composed cell: the head of the owed-acknowledgement list is taken into it (R22). -/
def driving (slot : Slot) (c : Cell) (ending : Option Ticket) (s : State) : State :=
  let filled : Cell :=
    match s.rx.owed with
    | [] => { c with ackValid := false, ackTarget := 0, ackNumber := 0, ackEpoch := 0 }
    | o :: _ => { c with ackValid := true, ackTarget := BitVec.ofNat 4 o.source.val, ackNumber := o.number, ackEpoch := o.epoch }
  { s with
    rx.owed := s.rx.owed.drop 1
    tx.cell := some { slot := slot, image := encodeCell filled, endsPassOf := ending } }

/-- The FILLER cell of a node and epoch, its acknowledgement field empty (R21). -/
def filler (n : Node) (epoch : Byte) : Cell :=
  { kind := 1, source := BitVec.ofNat 4 n.val, epoch := epoch, first := true, last := true, ackreq := false, index := 0,
    number := 0, total := 0, dest := 0, tag := 0, ackValid := false, ackTarget := 0, ackNumber := 0, ackEpoch := 0, count := 0,
    payload := [] }

/-- The DATA cell of index `k` of a record, in a pass to `set` (R20). -/
def dataOf (n : Node) (epoch : Byte) (r : Record) (number : Nibble) (set : NodeSet) (k : Nat) : Cell :=
  let size := min 16 (r.payload.length - 16 * k)
  { kind := 2, source := BitVec.ofNat 4 n.val, epoch := epoch, first := decide (k = 0)
    last := decide (k + 1 = cells r.payload.length), ackreq := r.ackreq, index := BitVec.ofNat 3 k
    number := if r.ackreq then number else 0, total := BitVec.ofNat 8 r.payload.length, dest := set.setWidth 16, tag := r.tag
    ackValid := false, ackTarget := 0, ackNumber := 0, ackEpoch := 0, count := BitVec.ofNat 8 size
    payload := (r.payload.drop (16 * k)).take size }

/-! ## The layout of cells -/

/-- One bit through the CRC register: it is shifted left by one place, and where the bit that leaves it differs from the bit taken, the
generator polynomial 0x1021 is added (R23). -/
def crcStep (register : Nat) (taken : Bool) : Nat :=
  if decide (32768 ≤ register) = taken then 2 * register % 65536 else (2 * register % 65536) ^^^ 0x1021

/-- The CRC-16 of R23: the register starts at 0xFFFF, bytes are taken in order, and each from its most significant bit down. -/
def crcOf (bytes : List Byte) : Nat :=
  (bytes.flatMap fun b => [7, 6, 5, 4, 3, 2, 1, 0].map fun k => b.getLsbD k).foldl crcStep 0xFFFF

/-- The fields of a cell stand in its bytes 0 to 27 as the cell layout table of chapter 2 places them. -/
abbrev cellFields (bytes : List Byte) (c : Cell) : Prop :=
  byteAt bytes 0 = 16 * c.kind.toNat + c.source.toNat
    ∧ byteAt bytes 1 = c.epoch.toNat
    ∧ (bytes.getD 2 0).getLsbD 7 = c.first ∧ (bytes.getD 2 0).getLsbD 6 = c.last ∧ (bytes.getD 2 0).getLsbD 5 = c.ackreq
    ∧ byteAt bytes 2 % 8 = c.index.toNat
    ∧ byteAt bytes 3 % 16 = c.number.toNat
    ∧ byteAt bytes 4 = c.total.toNat
    ∧ pairAt bytes 5 = c.dest.toNat
    ∧ byteAt bytes 7 = c.tag.toNat
    ∧ (bytes.getD 8 0).getLsbD 7 = c.ackValid ∧ byteAt bytes 8 % 16 = c.ackTarget.toNat
    ∧ byteAt bytes 9 % 16 = c.ackNumber.toNat
    ∧ byteAt bytes 10 = c.ackEpoch.toNat
    ∧ byteAt bytes 11 = c.count.toNat
    ∧ c.payload.length = 16 ∧ ∀ i : Fin 16, bytes.getD (12 + i.val) 0 = c.payload.getD i.val 0

/-- The bits of bytes 2, 3, 8 and 9 that the cell layout table marks "sent as 0" are 0. -/
abbrev cellSpare (bytes : List Byte) : Prop :=
  byteAt bytes 2 / 8 % 4 = 0 ∧ byteAt bytes 3 / 16 = 0 ∧ byteAt bytes 8 / 16 % 8 = 0 ∧ byteAt bytes 9 / 16 = 0

/-- The fields of a control payload stand in its sixteen bytes as the second table of chapter 2 places them. -/
abbrev contentFields (bytes : List Byte) (c : ControlContent) : Prop :=
  pairAt bytes 0 = c.frame.toNat
    ∧ byteAt bytes 2 = c.current.toNat
    ∧ (bytes.getD 3 0).getLsbD 0 = c.carriesPending ∧ (bytes.getD 3 0).getLsbD 1 = c.pendingExists
    ∧ pairAt bytes 4 = c.effective.toNat
    ∧ byteAt bytes 6 = c.generation.toNat
    ∧ c.owners.length = 15 ∧ (∀ k : Fin 15, nibbleAt bytes 7 k.val = (c.owners.getD k.val 0).toNat)
    ∧ byteAt bytes 15 = c.rate.toNat

/-! ## Cells heard -/

/-- R26: the image is a valid cell for a part of node `own` in `slot`. -/
abbrev validCell (own : Option Node) (slot : Slot) (image : List Byte) : Prop :=
  let c := readCell image
  crc16 (imageBody image) = imageCrc image
    ∧ (c.kind = 1 ∨ c.kind = 2 ∨ c.kind = 3)
    ∧ c.source.toNat < 12 ∧ (∀ n ∈ own, c.source.toNat ≠ n.val)
    ∧ c.epoch ≠ 0
    ∧ (c.kind = 3 ↔ slot.val = 0)
    ∧ c.count.toNat ≤ 16 ∧ c.total.toNat ≤ 128
    ∧ (c.first = true ↔ c.index.toNat = 0)
    ∧ (c.last = true ↔ c.index.toNat = cells c.total.toNat - 1)
    ∧ c.dest.toNat < 4096

/-- R28: the owner check is made for a cell received in a slot. -/
abbrev ownerChecked (slot : Slot) (s : State) : Prop :=
  slot.val ≠ 0
    ∧ (s.station.config.role = .master
        ∨ (s.map.active.isSome = true ∧ s.rx.controlRecord.isSome = true ∧ s.rx.controlRecord = s.map.frameGeneration))

/-- A good cell of source `src` is judged now: reception of the slot is in progress, no boundary work is left, the image is not an
empty slot, it is valid, and it passes the owner check (R24 to R29). -/
abbrev goodCell (slot : Slot) (image : List Byte) (src : Node) (s : State) : Prop :=
  s.due = [] ∧ s.rx.receiving = some slot ∧ imageByte image 0 ≠ 0xFF ∧ validCell s.station.config.node slot image
    ∧ (readCell image).source.toNat = src.val ∧ (ownerChecked slot s → ownedBy slot src s)

/-- The cell's acknowledgement field is a notice for this part (R31). -/
abbrev notice (c : Cell) (s : State) : Prop :=
  c.ackValid = true ∧ (∃ n, s.station.config.node = some n ∧ c.ackTarget.toNat = n.val) ∧ c.ackEpoch = s.station.config.epoch

/-- The cell's source epoch is the epoch seen for its source (R78). -/
abbrev sameEpoch (c : Cell) (src : Node) (s : State) : Prop := (s.rx.peers.get src).epoch = some c.epoch

/-- `s` after the permission decision that the end of slot 0 brings where it is open: permission exactly if LOCKED with the frame
generation announced by the frame's control cell, and else a silent frame (R17, R18).  After another slot nothing is decided. -/
def decided (slot : Slot) (s : State) : State :=
  if slot.val = 0 ∧ s.link.decisionDue = true then
    let granted := decide (s.link.lock = .locked ∧ s.rx.controlRecord.isSome = true ∧ s.rx.controlRecord = s.map.frameGeneration)
    { s with
      link.decisionDue := false
      link.permission := granted
      counters.silentFrames := if granted then s.counters.silentFrames else up s.counters.silentFrames }
  else s

/-- `s` after the judgement of a slot's image as far as every good cell goes: the reception is over and the good cell counted. -/
def heard (slot : Slot) (s : State) : State :=
  { s with
    rx.receiving := none
    link.position := some (256 * slot.val + 240)
    counters.good := up s.counters.good }

/-- A DATA cell addressed to this part (R32). -/
abbrev dataForUs (c : Cell) (s : State) : Prop :=
  c.kind = 2 ∧ ∃ n, s.station.config.node = some n ∧ c.dest.getLsbD n.val = true

/-- `s` owing an acknowledgement to a source (R81). -/
def owing (src : Node) (number : Nibble) (epoch : Byte) (s : State) : State :=
  { s with
    rx.owed := s.rx.owed.filter (fun o => o.source != src) ++ [{ source := src, number := number, epoch := epoch }] }

/-- `s` with the reassembly context of a source replaced. -/
def withContext (src : Node) (c : Context) (s : State) : State := { s with rx.contexts := s.rx.contexts.set src.val c }

/-- Blocks that a context holds (R101). -/
def held : Context → Nat
  | .assembling a => blocks a.total
  | .idle => 0
  | .discarding _ => 0

/-- `s` with the context of a source abandoned (R100). -/
def abandoned (src : Node) (s : State) : State :=
  { withContext src .idle s with rx.freeBlocks := s.rx.freeBlocks + held (s.rx.contexts.get src) }

/-- R104: a new message of a length finds a mailbox place and its blocks. -/
abbrev roomFor (length : Nat) (s : State) : Prop :=
  s.rx.mailbox.length + assemblingCount s < 16 ∧ blocks length ≤ s.rx.freeBlocks

/-- R44: the map content of a control payload is unusable. -/
abbrev unusable (c : ControlContent) : Prop :=
  (∃ n ∈ c.owners, n = 12 ∨ n = 13 ∨ n = 14)
    ∨ 3 < c.rate.toNat
    ∨ (c.carriesPending = true ∧ c.pendingExists = false)
    ∨ (c.carriesPending = false ∧ c.generation ≠ c.current)
    ∨ (c.carriesPending = true ∧ c.generation ≠ c.current + 1)
    ∨ (c.pendingExists = true ∧ ((c.effective - c.frame).toNat < 1 ∨ 255 < (c.effective - c.frame).toNat))

/-- R45: a member with usable content gives up the pending map it holds. -/
abbrev givesUp (c : ControlContent) (p : PendingMap) : Prop :=
  c.pendingExists = false ∨ c.effective ≠ p.effective
    ∨ (p.effective - c.frame).toNat < 1 ∨ 255 < (p.effective - c.frame).toNat

end Sys2Proof.Claims
end

