-- ==== Sys2Proof/Certificates/Slice0/Obligations.lean ====
section
/-! DEFINITION. The statements about the HL1216.  Each is a property of every state; what a statement needs of the state stands as
its hypotheses.  A statement "about a command that is executed now" (`Claims.executesNow`) gives the whole next state, so that
whatever it does not name is unchanged. -/

open Sys2Proof Sys2Proof.Machine Sys2Proof.Claims Sys2Proof.Safety

/-! ## The queue of commands -/

/-- A step takes the command at the front of the queue and runs it on the state with the queue's rest; with no command waiting the
block idles (log entry 1). -/
def Obligations.StepRunsTheFrontCommand : Prop :=
  (∀ (c : Instr) (rest : List Instr) (s : State), step { s with pending := c :: rest } = exec c { s with pending := rest })
    ∧ ∀ s : State, s.pending = [] → step s = .next s

/-- Every command completes: no command faults or is refused in any state, and none touches the queue of commands.  The queue, and that
a command whose event cannot happen in a state answers next there, are the model's choice (log entry 1). -/
def Obligations.EveryCommandCompletes : Prop :=
  ∀ (c : Instr) (s : State), ∃ t, exec c s = .next t ∧ t.pending = s.pending

/-- Boundary work that no command has done comes before the next event of the link (R15, R63): such events act as on the settled state,
in which none is left.  An item is done once; settling is doing one item after another as its own command does it, each drawn by the free
choice where more than one is outstanding.  A request comes as it is commanded, before the work that is left (R125): only ATTACH, DETACH and
MAP_WITHDRAW can change what is left.  That boundary work is listed at the boundary and done by later commands, and the counting of the
draws, are the model's choice (log entries 2 and 3). -/
def Obligations.BoundaryWorkComesFirst : Prop :=
  (∀ (c : Instr) (s : State), settlesFirst c = true → (settle s).due = [] ∧ exec c s = exec c (settle s))
    ∧ (∀ (w : Work) (s : State), w ∉ s.due → exec (workCommand w) s = .next s)
    ∧ (∀ (w : Work) (s : State), s.due = [w] → exec (workCommand w) s = .next (settle s))
    ∧ (∀ s : State, 2 ≤ s.due.length →
        ∃ w ∈ s.due, ∃ t, exec (workCommand w) { s with choices := s.choices + 1 } = .next t ∧ settle s = settle t)
    ∧ ∀ (c : Instr) (r : HostRequest) (s t : State), requestOf c = some r → executesNow r.seq s →
        r.kind.toNat ∉ [0x04, 0x05, 0x12] → exec c s = .next t →
        t.due = s.due ∧ t.schedulerBegun = s.schedulerBegun

/-- Where a later event of the frame is commanded while a cell is still being driven or a member's permission decision is still
open, the cell has ended and the decision has been made first (R3, R17, R69 with the model's choice of log entry 5). -/
def Obligations.TimeThatHasPassed : Prop :=
  ∀ (c : Instr) (s : State), s.due = [] →
    ((c = .masterFrameBoundary ∧ s.link.lock = .driving)
      ∨ ((c = .markObserved 4096 ∨ c = .missedMark) ∧ (s.link.lock = .locked ∨ s.link.lock = .coast))
      ∨ ∃ slot : Slot, c = .slotStart slot ∧ announcesSlots s.link.lock = true ∧ s.link.nextSlot ≤ slot.val) →
    (∀ cell, s.tx.cell = some cell → cell.endsPassOf = none → exec c s = exec c { s with tx.cell := none })
      ∧ (∀ cell u, s.tx.cell = some cell → cell.endsPassOf.isSome = true → exec .passEnd s = .next u →
          exec c s = exec c { u with link := { u.link with position := s.link.position } })
      ∧ (s.tx.cell = none → s.link.decisionDue = true → s.link.lock ≠ .driving → c ≠ .slotStart 0 →
          ∃ granted : Bool,
            (granted = true ↔ s.link.lock = .locked ∧ s.rx.controlRecord.isSome = true
              ∧ s.rx.controlRecord = s.map.frameGeneration)
            ∧ exec c s = exec c
                { s with
                  link.decisionDue := false
                  link.permission := granted
                  counters.silentFrames := if granted then s.counters.silentFrames else up s.counters.silentFrames })

/-! ## Resets -/

/-- The values that a pin reset leaves in every block (R19, R33, R52, R76, R98, R116, R127, R139, R157, R166); they meet every group of the
part's laws. -/
def Obligations.ResetValuesMeetTheLaws : Prop :=
  State.reset.station.state = .unconfigured ∧ State.reset.station.config = ⟨.member, none, 0, 2, 4, 3⟩
    ∧ State.reset.link.lock = .off ∧ State.reset.link.frame = 0 ∧ State.reset.link.position = none
    ∧ State.reset.link.missed = 0 ∧ State.reset.link.controlFlag = false ∧ State.reset.link.permission = false
    ∧ State.reset.map.active = none ∧ State.reset.map.frameGeneration = none ∧ State.reset.map.pendingMap = none
    ∧ (∀ k : Fin 15, State.reset.map.staged.get k = none) ∧ State.reset.map.masterNode = none
    ∧ State.reset.map.masterRate = none ∧ State.reset.map.outcome = .nothing
    ∧ State.reset.tx.records = [] ∧ State.reset.tx.retryOrder = [] ∧ State.reset.tx.freeBlocks = 64
    ∧ (∀ n : Node, State.reset.tx.sendTable.get n = none ∧ State.reset.tx.openSets.get n = 0)
    ∧ State.reset.tx.nextTicket = 1 ∧ State.reset.tx.lastNumber = 15 ∧ State.reset.tx.cell = none
    ∧ (∀ n : Node, State.reset.rx.peers.get n = ⟨none, none⟩ ∧ State.reset.rx.contexts.get n = .idle)
    ∧ State.reset.rx.owed = [] ∧ State.reset.rx.freeBlocks = 96 ∧ State.reset.rx.mailbox = []
    ∧ State.reset.rx.lossCount = 0 ∧ State.reset.rx.controlRecord = none ∧ State.reset.rx.receiving = none
    ∧ State.reset.events.records = [] ∧ State.reset.events.heldCount = 0 ∧ State.reset.events.nonResultCount = 0
    ∧ State.reset.events.pendingLost = 0
    ∧ State.reset.host.receive = .idle ∧ State.reset.host.kept = none ∧ State.reset.host.waiting = none
    ∧ State.reset.host.overrun = false ∧ State.reset.host.sending = none
    ∧ State.reset.counters = ⟨0, 0, 0, 0, 0, 0, 0, 0, 0, 0, 0, 0, 0, 0⟩
    ∧ outboundSound State.reset ∧ receiveAccounts State.reset ∧ stationLinkSound State.reset ∧ hostSound State.reset

/-- With RSTN low the lines are released, HTX carries no reply, nothing is received, and no event is acted on until RSTN goes high
(R165).  When RSTN goes high the straps give the host line's rate and every block holds its reset values (R128, R165; that the part is
then in its start-up interval is R170); through that interval nothing is received on HRX, and at its end the receive state is IDLE. -/
def Obligations.PinResetAndStartup : Prop :=
  (∀ s : State, ∃ t, exec .pinResetAssert s = .next t ∧ t.phase = .held
      ∧ attnActive t = false ∧ lckDriven t = none ∧ (∀ bitTime, ldatPulledLow t bitTime = false)
      ∧ t.link.lock = .off ∧ t.tx.cell = none ∧ t.rx.receiving = none ∧ t.host.sending = none ∧ t.host.receive = .idle)
    ∧ (∀ (c : Instr) (s t : State), exec .pinResetAssert s = .next t → (∀ straps, c ≠ .pinResetRelease straps) →
        exec c t = .next t)
    ∧ (∀ (straps : BitVec 2) (s : State), s.phase = .held →
      exec (.pinResetRelease straps) s
        = .next { State.reset with
            host := { State.reset.host with rate := straps }
            choices := s.choices
            pending := s.pending })
    ∧ (∀ (c : Instr) (s : State), onHrx c = true → s.phase = .startup → exec c s = .next s)
    ∧ ∀ s : State, s.phase = .startup →
        exec .startupIntervalEnd s = .next { s with phase := .running, host := { s.host with receive := .idle } }

/-- RESET is answered OK and changes nothing else while its reply is transmitted (R146, R164); when that transmission ends every block
takes its reset values, the strapped rate is kept, a waiting request is gone, and the part runs at once (R136, R164, R171).  That each of
the two commands which stand for that end makes the reset take effect is the model's choice (log entry 8). -/
def Obligations.ResetTakesEffectAtItsReplysEnd : Prop :=
  (∀ (seq : Byte) (s : State), executesNow seq s →
      exec (.reset seq []) s = .next (answeredWith true 0xFF seq .ok [] s))
    ∧ ∀ (s : State) (reply : SentReply), s.host.sending = some reply → reply.resets = true →
        let fresh : State :=
          { State.reset with
            phase := .running
            host := { State.reset.host with rate := s.host.rate }
            choices := s.choices
            pending := s.pending }
        exec .resetTakesEffect s = .next fresh
          ∧ (s.phase = .running → exec .replyTransmissionEnd s = .next fresh)

/-! ## The host line -/

/-- A request frame as a host sends it (R129) is read back as the request it carries, whatever its kind, and in every state the part acts
on its characters as on that request's own command.  That the command of a request row stands for the characters of its frame, and that
UNKNOWN_KIND_REQUEST with a known code stands for that kind's, are the model's choice (log entry 6). -/
def Obligations.RequestFramesAreReadBack : Prop :=
  (∀ r : HostRequest, r.params.length ≤ 248 →
      judgeFrame (requestFrame r) = .complete r
        ∧ ∀ s, exec (.requestReceived (requestFrame r)) s = exec (.unknownKindRequest r.kind r.seq r.params) s)
    ∧ (∀ (kind : RequestKind) (seq : Byte) (params : List Byte) (s : State), params.length ≤ 248 →
        exec (.requestReceived (requestFrame { kind := kind.code, seq := seq, params := params })) s
          = exec (command kind seq params) s)
    ∧ ∀ (seq : Byte) (s : State), executesNow seq s →
        exec (.requestReceived (requestFrame { kind := 0x01, seq := seq, params := [] })) s
          = .next (answered 0x81 seq .ok (identData s) s)

/-- A request that completes behind its lead byte and is not executed at once (R134, R136, R137): with the kept reply's sequence it is answered by that
reply again; behind a reply in transmission it waits; and with the waiting place full it is discarded and counted. -/
def Obligations.RequestIsReplayedWaitsOrIsDiscarded : Prop :=
  ∀ (c : Instr) (r : HostRequest) (s : State), requestOf c = some r → s.phase = .running → s.host.receive = .inFrame [] →
    (∀ k, s.host.sending = none → s.host.waiting = none → s.host.kept = some k → k.seq = r.seq →
        exec c s = .next
          { s with
            host :=
              { receive := .idle, kept := some k, waiting := none, overrun := false, rate := s.host.rate
                sending := some { reply := k, replay := true, overrun := s.host.overrun, resets := false } } })
      ∧ (s.host.sending.isSome = true → s.host.waiting = none →
          exec c s = .next { s with host := { s.host with receive := .idle, waiting := some r } })
      ∧ (s.host.waiting.isSome = true →
          exec c s = .next
            { s with
              host := { s.host with receive := .idle, overrun := true }
              counters := { s.counters with overruns := up s.counters.overruns } })

/-- At the end of a reply that is not a RESET's the waiting place is emptied and its request is taken up as one arriving with nothing
being transmitted; with nothing waiting the part only stops transmitting (R136).  The request taken up is spelled as
UNKNOWN_KIND_REQUEST of its kind, which with a known code stands for that kind's request by the model's choice (log entry 6). -/
def Obligations.ReplyEndTakesUpTheWaitingRequest : Prop :=
  ∀ (s : State) (reply : SentReply), s.phase = .running → s.host.sending = some reply → reply.resets = false →
    (s.host.waiting = none → exec .replyTransmissionEnd s = .next { s with host := { s.host with sending := none } })
      ∧ ∀ w, s.host.waiting = some w →
          ∃ t, exec (.unknownKindRequest w.kind w.seq w.params)
                { s with host := { s.host with receive := .inFrame [], sending := none, waiting := none } } = .next t
            ∧ exec .replyTransmissionEnd s = .next { t with host := { t.host with receive := s.host.receive } }

/-- Reception on HRX.  In IDLE a lead byte opens a frame and everything else passes without a count, the tail of a lost frame and
silence among it (R131, R133).  In IN_FRAME an error, a faulty character or a gap ends the frame with a frame error (R132, R133); a length
byte out of its range and a CRC that differs are errors, and short of them the characters of the frame are taken.  Characters are taken
one after another, so that those behind an error are examined in IDLE.  That LEAD_BYTE stands for any character, REQUEST_RECEIVED for any
characters and a request row for those of its frame is the model's choice (log entries 6 and 7). -/
def Obligations.HostLineReception : Prop :=
  ∀ s : State, s.phase = .running →
    (s.host.receive = .idle →
        exec (.leadByte 0xC3 false) s = .next (inFrame [] s)
          ∧ (∀ value fault, value ≠ 0xC3 ∨ fault = true → exec (.leadByte value fault) s = .next s)
          ∧ (∀ fault, exec (.hostFrameError fault) s = .next s)
          ∧ exec .gapTimeout s = .next s
          ∧ (∀ tail : List Byte, 0xC3 ∉ tail → exec (.requestReceived tail) s = .next s)
          ∧ ∀ (c : Instr) (r : HostRequest), requestOf c = some r → 0xC3 ∉ requestFrame r → exec c s = .next s)
      ∧ (∀ taken, s.host.receive = .inFrame taken →
          (∀ fault, exec (.hostFrameError fault) s = .next (inError s))
            ∧ exec .gapTimeout s = .next (inError s)
            ∧ (∀ value, exec (.leadByte value true) s = .next (inError s))
            ∧ ∀ value, exec (.leadByte value false) s = exec (.requestReceived [value]) s)
      ∧ (s.host.receive = .inFrame [] →
          (∀ l : Byte, l.toNat < 2 ∨ 250 < l.toNat → exec (.requestReceived [l]) s = .next (inError s))
            ∧ (∀ (l : Byte) (body : List Byte), 2 ≤ l.toNat → l.toNat ≤ 250 → body.length < l.toNat + 2 →
                exec (.requestReceived (l :: body)) s = .next (inFrame (l :: body) s))
            ∧ ∀ (l : Byte) (body : List Byte) (hi lo : Byte), 2 ≤ l.toNat → l.toNat ≤ 250 → body.length = l.toNat →
                crc16 (l :: body) ≠ hi ++ lo → exec (.requestReceived (l :: body ++ [hi, lo])) s = .next (inError s))
      ∧ ∀ (a b : List Byte) (t : State), exec (.requestReceived a) s = .next t →
          exec (.requestReceived (a ++ b)) s = exec (.requestReceived b) t

/-- A reply frame has the lead 0x3C, the number of its body bytes, the kind, the sequence, the status code, the flags REPLAY in bit 0 and
OVERRUN in bit 1, the data, and the CRC over the length and the body (R130).  The reply of an executed request has the kind plus 0x80 and
the sequence, REPLAY clear and OVERRUN as the overrun flag stood, which is cleared (R134, R135). -/
def Obligations.RepliesAreFramed : Prop :=
  (∀ r : SentReply, r.reply.data.length ≤ 246 →
      let counted : List Byte :=
        [BitVec.ofNat 8 (4 + r.reply.data.length), r.reply.kind, r.reply.seq, statusByte r.reply.status,
          BitVec.ofNat 8 (bit r.replay 0 + bit r.overrun 1)] ++ r.reply.data
      ∃ hi lo : Byte, hi ++ lo = crc16 counted ∧ replyFrame r = [0x3C] ++ counted ++ [hi, lo])
    ∧ ∀ (c : Instr) (r : HostRequest) (s t : State), requestOf c = some r → executesNow r.seq s → exec c s = .next t →
        ∃ sent, t.host.sending = some sent ∧ t.host.kept = some sent.reply ∧ sent.reply.kind = r.kind + 0x80
          ∧ sent.reply.seq = r.seq ∧ sent.replay = false ∧ sent.overrun = s.host.overrun ∧ t.host.overrun = false

/-- The output pins as the state gives them, and the character format.  ATTN is active exactly while the mailbox or the event queue holds
anything and RSTN is not low (R126, R165); LCK at the division of the rate code and LMK high in position 0 alone are driven exactly by a
driving master (R1, R3, R4, R19); LDAT is pulled low exactly for the 0 bits of the cell being driven, byte by byte from bit 7 down, and
never in the guard (R2, R3); HTX is high but for the characters of a reply, each a low start bit, the byte from bit 0 up and a high stop
bit, without a pause between them (R128, R135).  A character is read as it is sent, and a low stop bit is a character fault (R128).  That
the pins are functions of the state and a bit time is the model's choice (log entries 10 and 17). -/
def Obligations.PinsFollowTheState : Prop :=
  ∀ s : State,
    (attnActive s = true ↔ s.phase ≠ .held ∧ (s.rx.mailbox ≠ [] ∨ s.events.records ≠ []))
      ∧ (s.link.lock ≠ .driving → lckDriven s = none ∧ ∀ position, lmkDriven s position = none)
      ∧ (s.link.lock = .driving →
          lckDriven s = some ([16, 8, 4, 2].getD s.station.config.rateCode.toNat 0)
            ∧ ∀ position, lmkDriven s position = some (decide (position = 0)))
      ∧ (s.tx.cell = none → ∀ bitTime, ldatPulledLow s bitTime = false)
      ∧ (∀ cell, s.tx.cell = some cell → cell.image.length = 30 →
          (∀ (byte : Fin 30) (k : Fin 8),
              ldatPulledLow s (8 * byte.val + k.val) = !(cell.image.getD byte.val 0).getLsbD (7 - k.val))
            ∧ ∀ bitTime, 240 ≤ bitTime → ldatPulledLow s bitTime = false)
      ∧ (s.host.sending = none → ∀ bitTime, htxHigh s bitTime = true)
      ∧ (∀ r, s.host.sending = some r →
          (∀ (i : Nat) (b : Byte), (replyFrame r)[i]? = some b →
              htxHigh s (10 * i) = false ∧ (∀ k : Fin 8, htxHigh s (10 * i + 1 + k.val) = b.getLsbD k.val)
                ∧ htxHigh s (10 * i + 9) = true)
            ∧ ∀ bitTime, 10 * (replyFrame r).length ≤ bitTime → htxHigh s bitTime = true)
      ∧ baudRate s.host.rate = [57600, 115200, 230400, 460800].getD s.host.rate.toNat 0
      ∧ ∀ b : Byte, readCharacter (characterBits b) = (b, false)
          ∧ readCharacter ((characterBits b).dropLast ++ [false]) = (b, true)

/-! ## Requests: the general checks -/

/-- The first checks of an executed request, in their order (R140, R141): an unknown kind, a body length that does not suit the kind,
and the station state and role; each refusal changes nothing but the kept reply. -/
def Obligations.GeneralChecksAnswerInOrder : Prop :=
  ∀ (seq : Byte) (params : List Byte) (s : State), executesNow seq s →
    (∀ kind : Byte, (∀ k : RequestKind, k.code ≠ kind) →
        exec (.unknownKindRequest kind seq params) s = .next (answered (kind + 0x80) seq .unknownKind [] s))
      ∧ (∀ k : RequestKind, ¬lengthFits k (params.length + 2) →
          exec (command k seq params) s = .next (answered (k.code + 0x80) seq .badLength [] s))
      ∧ ∀ (k : RequestKind) (status : Status), lengthFits k (params.length + 2) →
          turnedAway k s.station.state s.station.config.role = some status →
          exec (command k seq params) s = .next (answered (k.code + 0x80) seq status [] s)

/-- A request refused at any step changes nothing in the part except the Host Port's own state, whose kept reply it replaces; its reply
has the request's kind plus 0x80 and its sequence, and a refusal carries no data but for the EMPTY of FETCH_EVENT, kind 0x31 (R140). -/
def Obligations.RefusedRequestsChangeNothing : Prop :=
  ∀ (c : Instr) (r : HostRequest) (s t : State), requestOf c = some r → executesNow r.seq s → exec c s = .next t →
    ∃ reply : Reply, t.host.kept = some reply ∧ reply.kind = r.kind + 0x80 ∧ reply.seq = r.seq
      ∧ (reply.status ≠ .ok → reply.data = [] ∨ (r.kind = 0x31 ∧ reply.status = .empty ∧ reply.data = [s.events.pendingLost]))
      ∧ (reply.status ≠ .ok → reply.status ≠ .cancelPending → reply.status ≠ .detachPending →
          { t with host := s.host } = s)

/-! ## Requests: reports -/

/-- IDENT reports the identity facts and the host line rate in force (R142); STATUS reports every block (R143); neither changes
anything. -/
def Obligations.IdentAndStatusReport : Prop :=
  ∀ (seq : Byte) (s : State), executesNow seq s →
    let c := s.station.config
    exec (.ident seq []) s = .next (answered 0x81 seq .ok
      [0x45, 0xA1, 0x12, 0x16, 1, BitVec.ofNat 8 s.host.rate.toNat, 12, 16, 32, 64, 16, 96, 32, 16, 128, 250] s)
    ∧ exec (.status seq []) s = .next (answered 0x82 seq .ok
      [ (match s.station.state with | .unconfigured => 0 | .detached => 1 | .attached => 2 | .detaching => 3),
        (match c.role with | .member => 0 | .master => 1),
        (match c.node with | none => 0xFF | some n => BitVec.ofNat 8 n.val),
        c.epoch, BitVec.ofNat 8 c.rateCode.toNat, BitVec.ofNat 8 c.ackWait, BitVec.ofNat 8 c.retryLimit,
        (match s.link.lock with
          | .off => 0 | .driving => 1 | .search => 2 | .verify => 3 | .locked => 4 | .coast => 5),
        BitVec.ofNat 8 (s.link.frame.toNat / 256), BitVec.ofNat 8 (s.link.frame.toNat % 256),
        BitVec.ofNat 8 (bit s.map.active.isSome 0 + bit s.map.pendingMap.isSome 1 + bit s.link.permission 2
          + bit (decide (s.rx.mailbox ≠ [] ∨ s.events.records ≠ [])) 3),
        (match s.map.active with | none => 0 | some m => m.generation),
        BitVec.ofNat 8 (match s.map.pendingMap with | none => 0 | some p => p.effective.toNat / 256),
        BitVec.ofNat 8 (match s.map.pendingMap with | none => 0 | some p => p.effective.toNat % 256),
        BitVec.ofNat 8 (match s.map.active, c.node with
          | some m, some n => (List.finRange 15).countP fun k => m.owners.get k == some n
          | _, _ => 0),
        BitVec.ofNat 8 s.tx.records.length, BitVec.ofNat 8 s.tx.freeBlocks, BitVec.ofNat 8 s.rx.mailbox.length,
        BitVec.ofNat 8 s.rx.freeBlocks,
        BitVec.ofNat 8 ((List.finRange 12).countP fun n => match s.rx.contexts.get n with
          | .assembling _ => true | .idle => false | .discarding _ => false),
        BitVec.ofNat 8 (resultTickets s.events.records).length,
        BitVec.ofNat 8 (s.events.records.length - (resultTickets s.events.records).length) ] s)

/-- MAP_READ reports the Map Unit's state byte by byte, owners nibble by nibble, and changes nothing (R50, R149).  Byte 14 is stated
for the distances that fit it, as R149 gives its values; beyond them it is a free value, and while the boundary of the effective frame has
left its switch to do it is one of R149's values 1 to 255 (log entry 22). -/
def Obligations.MapReadReportsTheMapUnit : Prop :=
  ∀ (seq : Byte) (s : State), executesNow seq s →
    ∃ d, exec (.mapRead seq []) s = .next (answered 0x93 seq .ok d s) ∧ d.length = 35
      ∧ byteAt d 0 = bit (decide (s.station.config.role = .master)) 0 + bit s.map.active.isSome 1
          + bit s.map.frameGeneration.isSome 2 + bit s.map.pendingMap.isSome 3 + bit s.map.masterNode.isSome 4
          + bit s.map.masterRate.isSome 5
      ∧ d.getD 1 0 = (generationOf s).getD 0 ∧ d.getD 2 0 = s.map.frameGeneration.getD 0
      ∧ (s.map.active = none → ∀ slot : Slot, nibbleAt d 3 slot.val = 15)
      ∧ (∀ m, s.map.active = some m →
          nibbleAt d 3 0 = ownerCode s.map.masterNode
            ∧ ∀ k : Fin 15, nibbleAt d 3 (k.val + 1) = ownerCode (m.owners.get k))
      ∧ (s.map.pendingMap = none → byteAt d 11 = 0 ∧ pairAt d 12 = 0 ∧ byteAt d 14 = 0
          ∧ ∀ k : Fin 15, nibbleAt d 15 k.val = 15)
      ∧ (∀ p, s.map.pendingMap = some p → d.getD 11 0 = p.map.generation ∧ pairAt d 12 = p.effective.toNat
          ∧ (Work.mapSwitch ∉ s.due → (p.effective - s.link.frame).toNat ≤ 255 →
              byteAt d 14 = (p.effective - s.link.frame).toNat)
          ∧ (Work.mapSwitch ∈ s.due → 1 ≤ byteAt d 14)
          ∧ ∀ k : Fin 15, nibbleAt d 15 k.val = ownerCode (p.map.owners.get k))
      ∧ nibbleAt d 15 15 = 0 ∧ nibbleAt d 23 15 = 0
      ∧ (∀ k : Fin 15, nibbleAt d 23 k.val = ownerCode (s.map.staged.get k))
      ∧ byteAt d 31 = (match s.map.masterNode with | none => 0 | some n => n.val)
      ∧ byteAt d 32 = (match s.map.masterRate with | none => 0 | some r => r.toNat)
      ∧ byteAt d 33 = (match s.map.outcome with | .nothing => 0 | .pending => 1 | .applied => 2 | .withdrawn => 3)
      ∧ byteAt d 34 = (match s.map.active, s.station.config.node with
          | some m, some n => (List.finRange 15).countP fun k => m.owners.get k == some n
          | _, _ => 0)

/-- PEER_READ reports four bytes for each node from the peer table, the owed list and the send number table, and changes nothing (R156,
R169). -/
def Obligations.PeerReadReportsTheTables : Prop :=
  ∀ (seq : Byte) (s : State), executesNow seq s →
    ∃ d, exec (.peerRead seq []) s = .next (answered 0xC1 seq .ok d s) ∧ d.length = 48
      ∧ ∀ n : Node,
          byteAt d (4 * n.val) = bit (s.rx.peers.get n).lastAccepted.isSome 0 + bit (s.tx.sendTable.get n).isSome 1
              + bit (decide (∃ o ∈ s.rx.owed, o.source = n)) 2
            ∧ d.getD (4 * n.val + 1) 0 = (s.rx.peers.get n).epoch.getD 0
            ∧ byteAt d (4 * n.val + 2) = (match (s.rx.peers.get n).lastAccepted with | none => 0 | some x => x.toNat)
            ∧ byteAt d (4 * n.val + 3) = (match s.tx.sendTable.get n with | none => 0 | some x => x.toNat)

/-- COUNTERS reports the fourteen counters in their order and, with bit 0 of its option set, sets them all to 0 in the same step (R155,
R167). -/
def Obligations.CountersAreReadAndCleared : Prop :=
  ∀ (seq option : Byte) (s : State), executesNow seq s →
    ∃ d, d.length = 28
      ∧ (∀ i : Fin 14, pairAt d (2 * i.val)
          = ([s.counters.good, s.counters.bad, s.counters.emptySlots, s.counters.foreign, s.counters.silentFrames,
              s.counters.lockLosses, s.counters.staleAcks, s.counters.duplicates, s.counters.breaks, s.counters.noRoom,
              s.counters.retransmissions, s.counters.frameErrors, s.counters.overruns, s.counters.eventsLost].getD
                i.val 0).toNat)
      ∧ exec (.counters seq [option]) s
          = .next (answered 0xC0 seq .ok d
              { s with counters := if option.toNat % 2 = 1 then ⟨0, 0, 0, 0, 0, 0, 0, 0, 0, 0, 0, 0, 0, 0⟩ else s.counters })

/-- QUERY_TICKET reports the record that holds the ticket, byte by byte, or answers NO_SUCH_TICKET; it changes nothing (R152).  Byte 17 is
the next index while that is 0 to 7; once the last cell of eight has begun, R68 makes it 8, and which of R152's values 0 to 7 the byte
then has is left free (log entry 23). -/
def Obligations.QueryTicketReportsTheRecord : Prop :=
  ∀ (seq hi lo : Byte) (s : State), executesNow seq s →
    ((∀ r ∈ s.tx.records, r.ticket ≠ hi ++ lo) →
        exec (.queryTicket seq [hi, lo]) s = .next (answered 0xA2 seq .noSuchTicket [] s))
      ∧ ∀ r, named (hi ++ lo) r s →
          ∃ d, exec (.queryTicket seq [hi, lo]) s = .next (answered 0xA2 seq .ok d s) ∧ d.length = 21
            ∧ pairAt d 0 = r.ticket.toNat
            ∧ byteAt d 2 = (match r.state with | .queued => 1 | .sending => 2 | .awaiting => 3 | .retry => 4)
            ∧ byteAt d 3 = bit (decide (r.cls = .urgent)) 0 + bit r.ackreq 1 + bit r.cancelRequested 2 + bit r.number.isSome 3
                + bit (decide (∃ p, r.pass = some p ∧ p.kind = .retransmission)) 4
            ∧ byteAt d 4 = (match r.number with | none => 0 | some n => n.toNat)
            ∧ byteAt d 5 = r.attempts % 256 ∧ byteAt d 6 = r.ackTimer % 256
            ∧ pairAt d 7 = r.dest.toNat ∧ pairAt d 9 = (if r.ackreq then r.pendingSet.toNat else 0)
            ∧ pairAt d 11 = (ackedSet r).toNat ∧ pairAt d 13 = r.lifetime.toNat
            ∧ byteAt d 15 = r.payload.length % 256 ∧ d.getD 16 0 = r.tag
            ∧ (r.pass = none → byteAt d 17 = 0) ∧ (∀ p, r.pass = some p → p.nextIndex ≤ 7 → byteAt d 17 = p.nextIndex)
            ∧ byteAt d 17 ≤ 7
            ∧ pairAt d 18 = (match r.pass with | none => 0 | some p => p.set.toNat)
            ∧ byteAt d 20 = (if r.state = .retry then (s.tx.retryOrder.idxOf r.ticket + 1) % 256 else 0)

/-! ## Requests: fetching -/

/-- FETCH_MESSAGE removes and returns the oldest mailbox entry with its blocks going back to the pool, and FETCH_EVENT removes and returns
the oldest event and lowers the count of its sort; with nothing to return they answer EMPTY and change nothing (R112, R124, R153,
R154). -/
def Obligations.FetchesReturnTheOldest : Prop :=
  ∀ (seq : Byte) (s : State), executesNow seq s →
    (s.rx.mailbox = [] → exec (.fetchMessage seq []) s = .next (answered 0xB0 seq .empty [] s))
      ∧ (∀ e rest, s.rx.mailbox = e :: rest →
          exec (.fetchMessage seq []) s = .next (answered 0xB0 seq .ok
            ([BitVec.ofNat 8 e.source.val, e.tag, BitVec.ofNat 8 e.payload.length, if e.ackreq then 1 else 0, e.lostBefore,
              BitVec.ofNat 8 (e.frame.toNat / 256), BitVec.ofNat 8 (e.frame.toNat % 256)] ++ e.payload)
            { s with rx := { s.rx with mailbox := rest, freeBlocks := s.rx.freeBlocks + blocks e.payload.length } }))
      ∧ (s.events.records = [] → exec (.fetchEvent seq []) s = .next (answered 0xB1 seq .empty [s.events.pendingLost] s))
      ∧ ∀ e rest, s.events.records = e :: rest →
          ∃ code data, exec (.fetchEvent seq []) s = .next (answered 0xB1 seq .ok
              ([code, e.lostBefore, BitVec.ofNat 8 (e.frame.toNat / 256), BitVec.ofNat 8 (e.frame.toNat % 256)] ++ data)
              { s with
                events :=
                  { records := rest, pendingLost := s.events.pendingLost
                    heldCount := if code = 1 then s.events.heldCount - 1 else s.events.heldCount
                    nonResultCount := if code = 1 then s.events.nonResultCount else s.events.nonResultCount - 1 } })
            ∧ (match e.kind with
                | .result t o a dest acked =>
                    code.toNat = 1 ∧ data.length = 8 ∧ pairAt data 0 = t.toNat
                      ∧ byteAt data 2 = (match o with
                          | .sent => 1 | .delivered => 2 | .partly => 3 | .failed => 4 | .expired => 5 | .cancelled => 6
                          | .flushed => 7)
                      ∧ byteAt data 3 = a % 256 ∧ pairAt data 4 = dest.toNat ∧ pairAt data 6 = acked.toNat
                | .linkUp m => code.toNat = 2 ∧ ∀ n, m = some n → data = [BitVec.ofNat 8 n.val]
                | .linkDown c =>
                    code.toNat = 3 ∧ data = [match c with | .marksMissed => 1 | .markMisplaced => 2 | .clockLost => 3]
                | .mapApplied g f => code.toNat = 4 ∧ data.length = 3 ∧ data.getD 0 0 = g ∧ pairAt data 1 = f.toNat
                | .mapResync old new => code.toNat = 5 ∧ data = [if old.isSome then 1 else 0, old.getD 0, new]
                | .peerEpoch n old new => code.toNat = 6 ∧ data = [BitVec.ofNat 8 n.val, old, new]
                | .detached n => code.toNat = 7 ∧ data = [BitVec.ofNat 8 n])

/-! ## Requests: the outbound queue -/

/-- An accepted SEND (R58, R59, R150): the record takes the first value of the ticket counter that no record holds, found within 32
steps; it joins the queue last, its place is held and its blocks are taken. -/
def Obligations.SendIsAccepted : Prop :=
  ∀ (seq code options destHi destLo tag lifeHi lifeLo : Byte) (payload : List Byte) (cls : MsgClass) (s : State),
    executesNow seq s → queueAccounts s →
    s.station.state = .detached ∨ s.station.state = .attached →
    (code.toNat = 0 ∧ cls = .routine) ∨ (code.toNat = 1 ∧ cls = .urgent) →
    (destHi ++ destLo).toNat ≠ 0 → (destHi ++ destLo).toNat < 4096 →
    (∀ n, s.station.config.node = some n → (destHi ++ destLo).getLsbD n.val = false) →
    payload.length ≤ 128 → s.tx.records.length + (resultTickets s.events.records).length < 32 →
    blocks payload.length ≤ s.tx.freeBlocks →
    ∃ k, k < 32 ∧ (∀ j, j < k → ∃ r ∈ s.tx.records, r.ticket = stepsOn s.tx.nextTicket j)
      ∧ (∀ r ∈ s.tx.records, r.ticket ≠ stepsOn s.tx.nextTicket k)
      ∧ exec (.send seq ([code, options, destHi, destLo, tag, lifeHi, lifeLo] ++ payload)) s
          = .next (answered 0xA0 seq .ok
              [BitVec.ofNat 8 ((stepsOn s.tx.nextTicket k).toNat / 256), BitVec.ofNat 8 ((stepsOn s.tx.nextTicket k).toNat % 256)]
              { s with
                events := { s.events with heldCount := s.events.heldCount + 1 }
                tx :=
                  { s.tx with
                    freeBlocks := s.tx.freeBlocks - blocks payload.length
                    nextTicket := stepsOn s.tx.nextTicket (k + 1)
                    records := s.tx.records ++
                      [{ ticket := stepsOn s.tx.nextTicket k, cls := cls, ackreq := options.getLsbD 0
                         dest := (destHi ++ destLo).setWidth 12
                         pendingSet := if options.getLsbD 0 then (destHi ++ destLo).setWidth 12 else 0
                         tag := tag, payload := payload, lifetime := lifeHi ++ lifeLo, number := none, attempts := 0
                         state := .queued, cancelRequested := false, ackTimer := 0, pass := none }] } })

/-- SEND's checks in the order of R57: the station state, class and destination set, length, places, blocks; a refused SEND changes
nothing, and one that passes all five is accepted. -/
def Obligations.SendChecksInOrder : Prop :=
  ∀ (seq code options destHi destLo tag lifeHi lifeLo : Byte) (payload : List Byte) (s : State),
    executesNow seq s → resultPlaces s →
    let request := exec (.send seq ([code, options, destHi, destLo, tag, lifeHi, lifeLo] ++ payload)) s
    let isOpen : Prop := s.station.state = .detached ∨ s.station.state = .attached
    let badOperand : Prop :=
      1 < code.toNat ∨ (destHi ++ destLo).toNat = 0 ∨ 4096 ≤ (destHi ++ destLo).toNat
        ∨ ∃ n, s.station.config.node = some n ∧ (destHi ++ destLo).getLsbD n.val = true
    let places := s.tx.records.length + (resultTickets s.events.records).length
    let refused (status : Status) : Prop := request = .next (answered 0xA0 seq status [] s)
    (¬isOpen → refused .wrongState)
      ∧ (isOpen → badOperand → refused .badParam)
      ∧ (isOpen → ¬badOperand → 128 < payload.length → refused .tooLong)
      ∧ (isOpen → ¬badOperand → payload.length ≤ 128 → places = 32 → refused .queueFull)
      ∧ (isOpen → ¬badOperand → payload.length ≤ 128 → places < 32 → s.tx.freeBlocks < blocks payload.length → refused .poolFull)
      ∧ (isOpen → ¬badOperand → payload.length ≤ 128 → places < 32 → blocks payload.length ≤ s.tx.freeBlocks →
          ∃ ticket u, request = .next (answered 0xA0 seq .ok ticket u) ∧ u.tx.records.length = s.tx.records.length + 1)

/-- CANCEL (R92 to R94): in UNCONFIGURED WRONG_STATE; without a record of the ticket NO_SUCH_TICKET; a SENDING record gets its cancel-requested flag and the answer is
CANCEL_PENDING; any other record produces CANCELLED at once. -/
def Obligations.CancelEndsOrMarksTheRecord : Prop :=
  ∀ (seq hi lo : Byte) (s : State), executesNow seq s →
    (s.station.state = .unconfigured → exec (.cancel seq [hi, lo]) s = .next (answered 0xA1 seq .wrongState [] s))
      ∧ (s.station.state ≠ .unconfigured → (∀ r ∈ s.tx.records, r.ticket ≠ hi ++ lo) →
        exec (.cancel seq [hi, lo]) s = .next (answered 0xA1 seq .noSuchTicket [] s))
      ∧ (s.station.state ≠ .unconfigured → ∀ r, named (hi ++ lo) r s → r.state = .sending →
          exec (.cancel seq [hi, lo]) s
            = .next (answered 0xA1 seq .cancelPending [] (replaced { r with cancelRequested := true } s)))
      ∧ (s.station.state ≠ .unconfigured → ∀ r, named (hi ++ lo) r s → r.state ≠ .sending →
          exec (.cancel seq [hi, lo]) s = .next (answered 0xA1 seq .ok [] (ended r .cancelled s)))

/-! ## Requests: joining and leaving -/

/-- An accepted CONFIGURE writes all six items, makes the station DETACHED, gives the Map Unit the values of its role, and forgets the
numbers that R158 names; nothing else changes (R51, R66, R67, R158). -/
def Obligations.ConfigureWritesTheWhole : Prop :=
  ∀ (seq : Byte) (role : Role) (node : Node) (epoch : Byte) (rate : BitVec 2) (wait limit : Nat) (s : State),
    executesNow seq s → s.station.state = .unconfigured ∨ s.station.state = .detached → s.tx.records = [] →
    epoch ≠ 0 → 2 ≤ wait → wait ≤ 15 → limit ≤ 7 →
    ∃ u, exec (.configure seq [(match role with | .member => 0 | .master => 1), BitVec.ofNat 8 node.val, epoch,
            rate.setWidth 8, BitVec.ofNat 8 wait, BitVec.ofNat 8 limit]) s = .next (answered 0x83 seq .ok [] u)
      ∧ u.station = { state := .detached, config := ⟨role, some node, epoch, rate, wait, limit⟩ }
      ∧ (match role with
          | .master => (∃ m, u.map.active = some m ∧ m.generation = 0 ∧ ∀ k : Fin 15, m.owners.get k = none)
              ∧ u.map.frameGeneration = some 0 ∧ u.map.masterNode = some node ∧ u.map.masterRate = some rate
          | .member => u.map.active = none ∧ u.map.frameGeneration = none ∧ u.map.masterNode = none ∧ u.map.masterRate = none)
      ∧ u.map.pendingMap = none ∧ (∀ k : Fin 15, u.map.staged.get k = none) ∧ u.map.outcome = .nothing
      ∧ (∀ n : Node,
          u.tx.sendTable.get n
              = (if epoch ≠ s.station.config.epoch ∨ (s.station.config.node ≠ some node ∧ n = node) then none
                  else s.tx.sendTable.get n)
            ∧ u.tx.openSets.get n
              = (if epoch ≠ s.station.config.epoch ∨ (s.station.config.node ≠ some node ∧ n = node) then 0
                  else s.tx.openSets.get n)
            ∧ u.rx.peers.get n
              = (if s.station.config.node ≠ some node ∧ n = node then ⟨none, none⟩ else s.rx.peers.get n))
      ∧ u = { s with
              station := u.station
              map := u.map
              tx := { s.tx with sendTable := u.tx.sendTable, openSets := u.tx.openSets }
              rx := { s.rx with peers := u.rx.peers } }

/-- CONFIGURE's own checks (R144): a byte outside its range is refused with BAD_PARAM, and then one that finds an outbound record
with QUEUE_NOT_EMPTY, nothing changing; a request that passes both is carried out and answered OK with no data, its six bytes
becoming the configuration. -/
def Obligations.ConfigureChecksItsBytes : Prop :=
  ∀ (seq role node epoch rate wait limit : Byte) (s : State),
    executesNow seq s → s.station.state = .unconfigured ∨ s.station.state = .detached →
    let inRange : Prop :=
      role.toNat ≤ 1 ∧ node.toNat ≤ 11 ∧ 1 ≤ epoch.toNat ∧ rate.toNat ≤ 3 ∧ 2 ≤ wait.toNat ∧ wait.toNat ≤ 15 ∧ limit.toNat ≤ 7
    (¬inRange → exec (.configure seq [role, node, epoch, rate, wait, limit]) s = .next (answered 0x83 seq .badParam [] s))
      ∧ (inRange → s.tx.records ≠ [] →
          exec (.configure seq [role, node, epoch, rate, wait, limit]) s = .next (answered 0x83 seq .queueNotEmpty [] s))
      ∧ (inRange → s.tx.records = [] →
          ∃ u, exec (.configure seq [role, node, epoch, rate, wait, limit]) s = .next (answered 0x83 seq .ok [] u)
            ∧ (u.station.config.role = .master ↔ role.toNat = 1)
            ∧ (∃ n : Node, u.station.config.node = some n ∧ n.val = node.toNat)
            ∧ u.station.config.epoch = epoch ∧ u.station.config.rateCode.toNat = rate.toNat
            ∧ u.station.config.ackWait = wait.toNat ∧ u.station.config.retryLimit = limit.toNat)

/-- ATTACH in DETACHED (R4, R8, R159): a member goes to SEARCH with its frame number kept; a master drives from frame 0 with permission,
its first mark is announced as a frame boundary, and with no map pending the control content of frame 0 is composed there (R42).  The
last-commit outcome becomes NOTHING.  That the first mark comes in the step of ATTACH is the model's deduction (log entry 15). -/
def Obligations.AttachJoinsTheLink : Prop :=
  ∀ (seq : Byte) (s : State), executesNow seq s → s.station.state = .detached →
    let joined : State :=
      { s with station := { s.station with state := .attached }, map := { s.map with outcome := .nothing } }
    (s.station.config.role = .member →
        exec (.attach seq []) s = .next (answered 0x84 seq .ok [] (searching joined)))
      ∧ (s.station.config.role = .master →
          ∃ u, exec (.attach seq []) s = .next (answered 0x84 seq .ok [] u)
            ∧ announces
                { counting joined with
                  link :=
                    { lock := .driving, frame := 0, position := some 0, missed := 0, controlFlag := false, permission := true
                      decisionDue := false, nextSlot := 0 } } u
            ∧ ∀ m, s.map.active = some m → s.map.pendingMap = none →
                ∃ bytes, u.map.content = some bytes ∧ contentFor 0 s.station.config.rateCode m none bytes)

/-- DETACH (R160): DETACHING is entered by a master and by a member in LOCKED or COAST; a member in SEARCH or VERIFY has left when the
reply is composed; in DETACHING nothing changes. -/
def Obligations.DetachRepliesByState : Prop :=
  ∀ (seq : Byte) (s : State), executesNow seq s →
    (s.station.state = .attached → s.link.lock = .driving ∨ s.link.lock = .locked ∨ s.link.lock = .coast →
        exec (.detach seq []) s
          = .next (answered 0x85 seq .detachPending [] { s with station := { s.station with state := .detaching } }))
      ∧ (s.station.state = .detaching → exec (.detach seq []) s = .next (answered 0x85 seq .detachPending [] s))
      ∧ (s.station.state = .attached → s.link.lock = .search ∨ s.link.lock = .verify →
          ∃ u, exec (.detach seq []) s = .next (answered 0x85 seq .ok [] u)
            ∧ u.station = { s.station with state := .detached } ∧ u.link.lock = .off ∧ u.tx.records = []
            ∧ exec .detachCompletion { s with due := [.completion] } = .next u)

/-! ## Requests: the slot map -/

/-- MAP_STAGE on a master (R36, R147): a list of one to fifteen good pairs that name different slots sets the owners of those slots in the
staged map and leaves the others; any other list is refused with BAD_PARAM and nothing changes. -/
def Obligations.MapStageSetsTheOwnersNamed : Prop :=
  ∀ (seq : Byte) (pairs : List (Byte × Byte)) (s : State),
    executesNow seq s → s.station.state ≠ .unconfigured → s.station.config.role = .master →
    let good : Prop :=
      1 ≤ pairs.length ∧ pairs.length ≤ 15
        ∧ (∀ p ∈ pairs, 1 ≤ p.1.toNat ∧ p.1.toNat ≤ 15 ∧ (p.2.toNat ≤ 11 ∨ p.2.toNat = 15))
        ∧ (pairs.map fun p => p.1).Nodup
    (¬good → exec (.mapStage seq (pairs.flatMap fun p => [p.1, p.2])) s = .next (answered 0x90 seq .badParam [] s))
      ∧ (good →
          ∃ staged : SlotOwners,
            exec (.mapStage seq (pairs.flatMap fun p => [p.1, p.2])) s
                = .next (answered 0x90 seq .ok [] { s with map := { s.map with staged := staged } })
              ∧ ∀ k : Fin 15,
                  (∀ p ∈ pairs, p.1.toNat = k.val + 1 → ownerCode (staged.get k) = p.2.toNat)
                    ∧ ((∀ p ∈ pairs, p.1.toNat ≠ k.val + 1) → staged.get k = s.map.staged.get k))

/-- MAP_COMMIT on a master (R37, R38, R148): a lead below 4 is refused; in DETACHED the staged map becomes the active map at once; in
ATTACHED it becomes the pending map `lead` frames on, unless a map is pending. -/
def Obligations.MapCommitInstallsOrAnnounces : Prop :=
  ∀ (seq lead : Byte) (s : State), executesNow seq s → s.station.config.role = .master →
    (s.station.state = .detached ∨ s.station.state = .attached → lead.toNat < 4 →
        exec (.mapCommit seq [lead]) s = .next (answered 0x91 seq .badParam [] s))
      ∧ (∀ m, s.station.state = .detached → 4 ≤ lead.toNat → s.map.active = some m →
          exec (.mapCommit seq [lead]) s
            = .next (answered 0x91 seq .ok [1, m.generation + 1, 0, 0]
                { s with
                  map :=
                    { s.map with
                      active := some { owners := s.map.staged, generation := m.generation + 1 }
                      frameGeneration := some (m.generation + 1)
                      outcome := .applied } }))
      ∧ (s.station.state = .attached → 4 ≤ lead.toNat → s.map.pendingMap.isSome = true →
          exec (.mapCommit seq [lead]) s = .next (answered 0x91 seq .mapPending [] s))
      ∧ ∀ m, s.station.state = .attached → 4 ≤ lead.toNat → s.map.pendingMap = none → s.map.active = some m →
          let effective : Half := BitVec.ofNat 16 (s.link.frame.toNat + lead.toNat)
          exec (.mapCommit seq [lead]) s
            = .next (answered 0x91 seq .ok
                [0, m.generation + 1, BitVec.ofNat 8 (effective.toNat / 256), BitVec.ofNat 8 (effective.toNat % 256)]
                { s with
                  map :=
                    { s.map with
                      pendingMap :=
                        some { map := { owners := s.map.staged, generation := m.generation + 1 }, effective := effective }
                      outcome := .pending } })

/-- MAP_WITHDRAW (R40): refused in UNCONFIGURED and on a member; on a master answered from the pending map and the last-commit outcome.  One
that comes between the boundary of the effective frame and its switch is taken first: no switch is left, and the Map Unit sets the frame
generation and composes the control content with no map pending (R35, R41, R42); that a request can come there is the model's choice (log
entry 2). -/
def Obligations.MapWithdrawTakesThePendingMapBack : Prop :=
  ∀ (seq : Byte) (s : State), executesNow seq s →
    (s.station.state = .unconfigured → exec (.mapWithdraw seq []) s = .next (answered 0x92 seq .wrongState [] s))
      ∧ (s.station.state ≠ .unconfigured → s.station.config.role = .member →
          exec (.mapWithdraw seq []) s = .next (answered 0x92 seq .notMaster [] s))
      ∧ (s.station.state ≠ .unconfigured → s.station.config.role = .master → s.map.pendingMap.isSome = true →
          (Work.mapSwitch ∉ s.due →
            exec (.mapWithdraw seq []) s
              = .next (answered 0x92 seq .ok [] { s with map := { s.map with pendingMap := none, outcome := .withdrawn } }))
            ∧ (Work.mapSwitch ∈ s.due → ∀ m, s.map.active = some m →
                ∃ bytes, contentFor s.link.frame s.station.config.rateCode m none bytes
                  ∧ exec (.mapWithdraw seq []) s
                      = .next (answered 0x92 seq .ok []
                          { s with
                            due := s.due.erase .mapSwitch
                            map :=
                              { s.map with
                                pendingMap := none
                                outcome := .withdrawn
                                frameGeneration := some m.generation
                                content := some bytes } })))
      ∧ (s.station.state ≠ .unconfigured → s.station.config.role = .master → s.map.pendingMap = none → s.map.outcome = .applied →
          exec (.mapWithdraw seq []) s = .next (answered 0x92 seq .tooLate [] s))
      ∧ (s.station.state ≠ .unconfigured → s.station.config.role = .master → s.map.pendingMap = none →
          s.map.outcome = .nothing ∨ s.map.outcome = .withdrawn →
          exec (.mapWithdraw seq []) s = .next (answered 0x92 seq .nothingPending [] s))

/-! ## Frame boundaries and lock -/

/-- At the end of position 4095 a driving master begins the next frame: the frame number goes up by 1 modulo 65536, the count restarts and
the boundary is announced (R5, R15).  A detaching master's boundary begins no frame and completes the detach (R6, R161): the frame
number is kept; lifetimes, ack timers and contexts count, and those that run out are listed as work beside the completion (R163); the Map
Unit makes no switch; and once the completion is done the link is released and the station DETACHED. -/
def Obligations.MasterBoundaryBeginsOrEndsTheFrames : Prop :=
  ∀ s : State, s.due = [] → s.link.lock = .driving → s.tx.cell = none →
    (s.station.state ≠ .detaching →
        ∃ t, exec .masterFrameBoundary s = .next t
          ∧ announces { counting s with link.frame := s.link.frame + 1 } t)
      ∧ (s.station.state = .detaching →
          ∃ t, exec .masterFrameBoundary s = .next t
            ∧ ticksAt s t ∧ Work.mapSwitch ∉ t.due ∧ t.map = s.map
            ∧ ∃ u, exec .detachCompletion t = .next u ∧ u.station = { s.station with state := .detached }
                ∧ u.link.lock = .off ∧ u.link.frame = s.link.frame ∧ u.due = [])

/-- The control content that a master composes at a boundary reads back with the fields of R42: the frame that begins, the active
generation, and the current map, or, in odd frames of a pending period, the pending map.  At the boundary that switches the map it is
composed after the switch work, with the new map active and none pending (R41). -/
def Obligations.ControlContentIsComposedAtTheBoundary : Prop :=
  (∀ (s t : State) (m : SlotMap), s.due = [] → s.link.lock = .driving → s.station.state = .attached →
      s.station.config.role = .master → s.map.active = some m → exec .masterFrameBoundary s = .next t → Work.mapSwitch ∉ t.due →
      ∃ bytes, t.map.content = some bytes ∧ contentFor t.link.frame s.station.config.rateCode m s.map.pendingMap bytes)
    ∧ ∀ (s : State) (p : PendingMap), s.due = [] → s.link.lock = .driving → s.tx.cell = none → s.station.state = .attached →
        s.station.config.role = .master → s.map.pendingMap = some p → p.effective = s.link.frame + 1 →
        ∃ t u bytes, exec .masterFrameBoundary s = .next t ∧ Work.mapSwitch ∈ t.due ∧ t.map = s.map
          ∧ exec .mapSwitch t = .next u ∧ u.map.active = some p.map ∧ u.map.content = some bytes
          ∧ contentFor p.effective s.station.config.rateCode p.map none bytes

/-- A member in SEARCH and VERIFY (R8, R9, R14): a mark in SEARCH, a mark too early, or one at count 4096 without a valid control cell in the
frame becomes the reference; a missing one sends it back to SEARCH; and a mark at count 4096 after a valid control cell is the counted
boundary at which it enters LOCKED and places LINK_UP.  A clock that stops in VERIFY sends it to SEARCH without an event or a count; in
SEARCH and OFF it changes nothing, and a master does not watch it (R5, R12, R19).  The model's own: LINK_UP comes before the boundary's
other work (log entry 15), the control-cell flag is clear in SEARCH (log entry 19), and MISSED_MARK changes nothing there (log entry 1). -/
def Obligations.MemberFindsTheFrame : Prop :=
  ∀ s : State, s.due = [] →
    (∀ count, s.link.lock = .search → exec (.markObserved count) s = .next (referenced s))
      ∧ (∀ count : Fin 4097, s.link.lock = .verify → count.val < 4096 ∨ s.link.controlFlag = false →
          exec (.markObserved count) s = .next (referenced s))
      ∧ (s.link.lock = .verify → exec .missedMark s = .next (searching s))
      ∧ (s.link.lock = .verify → s.link.controlFlag = true →
          ∃ t, exec (.markObserved 4096) s = .next t
            ∧ announces (offered (.linkUp s.map.masterNode) (countedInto .locked 0 s)) t)
      ∧ (s.link.lock = .search → exec .missedMark s = .next s)
      ∧ (s.link.lock = .verify → exec .clockLoss s = .next (searching s))
      ∧ (s.link.lock = .search ∨ s.link.lock = .off ∨ s.link.lock = .driving → exec .clockLoss s = .next s)

/-- A member in LOCKED and COAST counts its boundaries (R10, R11): a mark at count 4096 keeps or restores LOCKED, one missing mark goes to
COAST, and a second stays there; each is announced as a boundary. -/
def Obligations.MemberCountsItsBoundaries : Prop :=
  ∀ s : State, s.due = [] → s.tx.cell = none → s.link.decisionDue = false →
    (s.link.lock = .locked → ∃ t, exec (.markObserved 4096) s = .next t ∧ announces (countedInto .locked s.link.missed s) t)
      ∧ (s.link.lock = .locked → ∃ t, exec .missedMark s = .next t ∧ announces (countedInto .coast 1 s) t)
      ∧ (s.link.lock = .coast → ∃ t, exec (.markObserved 4096) s = .next t ∧ announces (countedInto .locked 0 s) t)
      ∧ (s.link.lock = .coast → s.link.missed = 1 → ∃ t, exec .missedMark s = .next t ∧ announces (countedInto .coast 2 s) t)

/-- A lock loss (R10 to R13): a misplaced mark, the third missed mark or a stopped clock in LOCKED or COAST is counted, places LINK_DOWN with
its cause, gives up the line and permission, cuts the pass in progress, leaves LOCKED and COAST, and completes a detach in progress after
the LINK_DOWN.  A station that is not DETACHING keeps its maps, the reassembly contexts, the mailbox, the free blocks, the loss count, the
peer table and the acknowledgements owed (R49, R114); only the mark taken as a reference sets the frame generation (R35) and makes the
control record absent (R27). -/
def Obligations.LockLossIsReported : Prop :=
  ∀ (s : State) (c : Instr) (cause : LossCause), s.due = [] → passesSound s →
    losesLock c cause s →
    ∃ t new, exec c s = .next t ∧ t.events.records = s.events.records ++ new
      ∧ t.counters.lockLosses = up s.counters.lockLosses
      ∧ t.link.permission = false ∧ t.tx.cell = none ∧ noneSending t ∧ t.rx.receiving = none ∧ t.link.frame = s.link.frame
      ∧ (s.events.nonResultCount < 16 →
          ∃ before after e, new = before ++ e :: after ∧ e.kind = .linkDown cause ∧ e.frame = s.link.frame
            ∧ ∀ f ∈ before, ∀ n, f.kind ≠ .detached n)
      ∧ (s.station.state ≠ .detaching → t.station = s.station
          ∧ t.link.lock = (if cause = .markMisplaced then .verify else .search)
          ∧ t.map = { s.map with
              frameGeneration := if cause = .markMisplaced then generationOf s else s.map.frameGeneration }
          ∧ t.rx = { s.rx with
              receiving := none
              controlRecord := if cause = .markMisplaced then none else s.rx.controlRecord }
          ∧ t.host = s.host)
      ∧ (s.station.state = .detaching → t.station = { s.station with state := .detached } ∧ t.link.lock = .off)

/-- What a lock loss of any cause does to a pass that is still in progress (R13, R96, R97): a first pass goes back to QUEUED in its place without its number, its attempt taken
back; a retransmission pass goes back to the head of the RETRY order; and either ends where cancel was requested, the second also where no
node is left pending. -/
def Obligations.LockLossCutsThePass : Prop :=
  ∀ (s : State) (c : Instr) (cause : LossCause) (r : Record) (p : Pass), s.due = [] → losesLock c cause s → beforePassEnd c s →
    s.station.state = .attached →
    s.tx.records.find? (fun q => decide (q.state = .sending)) = some r → r.pass = some p →
    let cut : Record := { r with pass := none, attempts := r.attempts - 1 }
    ∃ t, exec c s = .next t
      ∧ (p.kind = .first →
          (∀ n : Node, t.tx.openSets.get n
              = (match r.number with
                | none => s.tx.openSets.get n
                | some k => if r.dest.getLsbD n.val then s.tx.openSets.get n &&& ~~~(1#16 <<< k.toNat) else s.tx.openSets.get n))
            ∧ t.tx.sendTable = s.tx.sendTable ∧ t.tx.lastNumber = s.tx.lastNumber
            ∧ (r.cancelRequested = false →
                t.tx.records = (replaced { cut with state := .queued, number := none } s).tx.records
                  ∧ t.tx.retryOrder = s.tx.retryOrder ∧ t.tx.freeBlocks = s.tx.freeBlocks)
            ∧ (r.cancelRequested = true →
                t.tx.records = (ended cut .cancelled s).tx.records ∧ t.tx.freeBlocks = (ended cut .cancelled s).tx.freeBlocks
                  ∧ ∃ e ∈ t.events.records, e.kind = resultOf cut .cancelled))
      ∧ (p.kind = .retransmission →
          t.tx.openSets = s.tx.openSets ∧ t.tx.sendTable = s.tx.sendTable ∧ t.tx.lastNumber = s.tx.lastNumber
            ∧ (r.pendingSet = 0 →
                t.tx.records = (ended cut .delivered s).tx.records ∧ t.tx.freeBlocks = (ended cut .delivered s).tx.freeBlocks
                  ∧ ∃ e ∈ t.events.records, e.kind = resultOf cut .delivered)
            ∧ (r.pendingSet ≠ 0 → r.cancelRequested = true →
                t.tx.records = (ended cut .cancelled s).tx.records ∧ t.tx.freeBlocks = (ended cut .cancelled s).tx.freeBlocks
                  ∧ ∃ e ∈ t.events.records, e.kind = resultOf cut .cancelled)
            ∧ (r.pendingSet ≠ 0 → r.cancelRequested = false →
                t.tx.records = (replaced { cut with state := .retry, ackTimer := 0 } s).tx.records
                  ∧ t.tx.retryOrder = r.ticket :: s.tx.retryOrder ∧ t.tx.freeBlocks = s.tx.freeBlocks))

/-! ## Slots -/

/-- A slot without a message to send.  One that the part does not drive is received, from its start on, and in slot 0, also of a member
whose permission for the frame is still to be decided, the control record is made absent (R16, R24, R27); slot 0 of a master carries the control content composed for the frame, and an owned slot
carries a FILLER, each with the head of the owed-acknowledgement list (R21, R22, R61, R62, R70). -/
def Obligations.SlotsWithoutAMessage : Prop :=
  ∀ (slot : Slot) (s : State), startsNow slot s →
    (¬(slot.val ≠ 0 ∧ mayDrive slot s) → ¬(slot.val = 0 ∧ mayDriveControl s) →
        exec (.slotStart slot) s = .next { atSlot slot s with rx.receiving := some slot })
      ∧ (∀ n content, s.station.config.node = some n → slot.val = 0 → mayDriveControl s → s.map.content = some content →
        exec (.slotStart slot) s
          = .next (driving slot
              { filler n s.station.config.epoch with kind := 3, total := 16, count := 16, payload := content } none (atSlot slot s)))
      ∧ (∀ n, s.station.config.node = some n → slot.val ≠ 0 → mayDrive slot s → noneSending s →
          s.station.state = .detaching ∨ (s.tx.retryOrder = [] ∧ noneOf .urgent s ∧ noneOf .routine s) →
          exec (.slotStart slot) s = .next (driving slot (filler n s.station.config.epoch) none (atSlot slot s)))

/-- In an owned slot the part sends the next cell of the pass in progress, and otherwise, while ATTACHED, starts a retransmission pass of the
record that entered RETRY earliest (R20, R61 steps 1 and 2, R64, R68, R90). -/
def Obligations.PassesContinueAndRetransmit : Prop :=
  ∀ (slot : Slot) (n : Node) (r : Record) (s : State), startsNow slot s → slot.val ≠ 0 → mayDrive slot s →
    s.station.config.node = some n →
    (∀ p, s.tx.records.find? (fun q => decide (q.state = .sending)) = some r → r.pass = some p →
        exec (.slotStart slot) s
          = .next (driving slot (dataOf n s.station.config.epoch r (r.number.getD 0) p.set p.nextIndex)
              (if p.nextIndex + 1 = cells r.payload.length then some r.ticket else none)
              (replaced { r with pass := some { p with nextIndex := p.nextIndex + 1 } } (atSlot slot s))))
      ∧ (∀ rest, s.station.state = .attached → noneSending s → s.tx.retryOrder = r.ticket :: rest → named r.ticket r s →
          exec (.slotStart slot) s
            = .next (driving slot (dataOf n s.station.config.epoch r (r.number.getD 0) r.pendingSet 0)
                (if cells r.payload.length = 1 then some r.ticket else none)
                (replaced
                  { r with
                    state := .sending
                    attempts := r.attempts + 1
                    pass := some { kind := .retransmission, set := r.pendingSet, nextIndex := 1 } }
                  { atSlot slot s with
                    tx.retryOrder := s.tx.retryOrder.filter (fun t => t != r.ticket)
                    counters.retransmissions := up s.counters.retransmissions })))

/-- With no record SENDING or in RETRY, an owned slot in ATTACHED starts the first pass of the oldest eligible URGENT record, and of the oldest
eligible ROUTINE record where there is none (R60, R61 steps 3 and 4, R64, R65, R67): an acknowledged record takes the first number after the last
assigned one that lies in no destination's open-number set. -/
def Obligations.FirstPassOfTheOldestEligible : Prop :=
  ∀ (slot : Slot) (n : Node) (older younger : List Record) (m : Record) (s : State), startsNow slot s → slot.val ≠ 0 →
    mayDrive slot s → s.station.config.node = some n → s.station.state = .attached → noneSending s → s.tx.retryOrder = [] →
    oldestOf .urgent older m younger s ∨ (noneOf .urgent s ∧ oldestOf .routine older m younger s) →
    let begun : Record :=
      { m with
        state := .sending
        attempts := m.attempts + 1
        pass := some { kind := .first, set := m.dest, nextIndex := 1 } }
    let ending : Option Ticket := if cells m.payload.length = 1 then some m.ticket else none
    (m.ackreq = false →
        exec (.slotStart slot) s
          = .next (driving slot (dataOf n s.station.config.epoch m 0 m.dest 0) ending (replaced begun (atSlot slot s))))
      ∧ (m.ackreq = true →
          ∃ j < 16,
            let number : Nibble := s.tx.lastNumber + 1 + BitVec.ofNat 4 j
            (∀ d : Node, m.dest.getLsbD d.val = true → (s.tx.openSets.get d).getLsbD number.toNat = false)
              ∧ (∀ i < j, ∃ d : Node, m.dest.getLsbD d.val = true
                  ∧ (s.tx.openSets.get d).getLsbD (s.tx.lastNumber + 1 + BitVec.ofNat 4 i).toNat = true)
              ∧ exec (.slotStart slot) s
                  = .next (driving slot (dataOf n s.station.config.epoch m number m.dest 0) ending
                      (replaced { begun with number := some number }
                        { atSlot slot s with
                          tx.sendTable :=
                            Vector.ofFn fun d => if m.dest.getLsbD d.val then some number else s.tx.sendTable.get d
                          tx.openSets :=
                            Vector.ofFn fun d =>
                              if m.dest.getLsbD d.val then s.tx.openSets.get d ||| 1#16 <<< number.toNat else s.tx.openSets.get d
                          tx.lastNumber := number })))

/-- The end of a pass (R69, R86): an unacknowledged record produces SENT; an acknowledged one DELIVERED with no node pending, else CANCELLED with
cancel requested, and else it enters AWAITING with its timer at the configured ack wait.  That PASS_END changes nothing under a cell that ends no
pass is the model's choice (log entry 1). -/
def Obligations.PassEndIsJudged : Prop :=
  ∀ (s : State) (cell : SentCell) (r : Record), s.due = [] → s.tx.cell = some cell →
    (cell.endsPassOf = none → exec .passEnd s = .next s)
      ∧ (cell.endsPassOf = some r.ticket → named r.ticket r s →
          let u : State := { s with tx.cell := none, link.position := some (256 * cell.slot.val + 240) }
          let dropped : Record := { r with pass := none }
          (r.ackreq = false → exec .passEnd s = .next (ended dropped .sent u))
            ∧ (r.ackreq = true → r.pendingSet = 0 → exec .passEnd s = .next (ended dropped .delivered u))
            ∧ (r.ackreq = true → r.pendingSet ≠ 0 → r.cancelRequested = true → exec .passEnd s = .next (ended dropped .cancelled u))
            ∧ (r.ackreq = true → r.pendingSet ≠ 0 → r.cancelRequested = false →
                exec .passEnd s
                  = .next (replaced { dropped with state := .awaiting, ackTimer := s.station.config.ackWait } u)))

/-- Law 10 (R17): the part begins to drive a cell only at the start of a slot in which it has permission while ATTACHED or DETACHING, a slot of 1 to
15 that the active map gives its node, or slot 0 on a master. -/
def Obligations.OnlyOwnedSlotsAreDriven : Prop :=
  ∀ (c : Instr) (s t : State), exec c s = .next t → t.tx.cell ≠ none → t.tx.cell ≠ s.tx.cell →
    ∃ slot : Slot, c = .slotStart slot ∧ (∀ cell, t.tx.cell = some cell → cell.slot = slot)
      ∧ ((slot.val ≠ 0 ∧ mayDrive slot t) ∨ (slot.val = 0 ∧ mayDriveControl t))

/-- Law 11 (R65): a message number that a step gives to a record lies in none of the open-number sets of its destinations as they stood before the
step. -/
def Obligations.DrawnNumbersAreClosed : Prop :=
  ∀ (c : Instr) (s t : State), outboundSound s → exec c s = .next t →
    ∀ r ∈ s.tx.records, ∀ r' ∈ t.tx.records, r'.ticket = r.ticket → r.number = none → ∀ k, r'.number = some k →
      ∀ d : Node, r'.dest.getLsbD d.val = true → (s.tx.openSets.get d).getLsbD k.toNat = false

/-! ## Cells -/

/-- The layout of cells and control payloads, byte by byte, and the CRC (R20 to R23, R42, the two layout tables of chapter 2).  A composed
cell is thirty bytes whose fields stand where the table puts them, with the bits marked "sent as 0" clear and the CRC-16 over bytes 0 to 27
in its last two bytes; an image of thirty bytes is read by the same table, whatever those bits are, and its check is over the same bytes.
A composed cell reads back field for field, and so does a control payload. -/
def Obligations.CellsAreReadBack : Prop :=
  (∀ c : Cell, c.payload.length = 16 →
      (encodeCell c).length = 30 ∧ cellFields (encodeCell c) c ∧ cellSpare (encodeCell c)
        ∧ pairAt (encodeCell c) 28 = crcOf ((encodeCell c).take 28)
        ∧ readCell (encodeCell c) = c ∧ crc16 (imageBody (encodeCell c)) = imageCrc (encodeCell c))
    ∧ (∀ image : List Byte, image.length = 30 →
        cellFields image (readCell image)
          ∧ (crc16 (imageBody image) = imageCrc image ↔ crcOf (image.take 28) = pairAt image 28))
    ∧ (∀ bytes : List Byte, (crc16 bytes).toNat = crcOf bytes)
    ∧ (∀ c : ControlContent, c.owners.length = 15 →
        (encodeContent c).length = 16 ∧ contentFields (encodeContent c) c
          ∧ byteAt (encodeContent c) 3 < 4 ∧ byteAt (encodeContent c) 14 % 16 = 0 ∧ readContent (encodeContent c) = c)
    ∧ ∀ payload : List Byte, payload.length = 16 → contentFields payload (readContent payload)

/-- The judgement of a received slot (R24 to R26, R28): an empty slot, a bad cell and a foreign cell each raise their own counter and change nothing
else, but that after slot 0 an open permission decision is made (R17, R18); with no reception in progress nothing is examined. -/
def Obligations.SlotsAreJudged : Prop :=
  ∀ (image : List Byte) (s : State), s.due = [] →
    (s.rx.receiving = none → exec (.cellReceived image) s = .next s)
      ∧ ∀ slot : Slot, s.rx.receiving = some slot →
          let judged : State := { s with rx.receiving := none, link.position := some (256 * slot.val + 240) }
          (imageByte image 0 = 0xFF →
              exec (.cellReceived image) s = .next (decided slot { judged with counters.emptySlots := up s.counters.emptySlots }))
            ∧ (imageByte image 0 ≠ 0xFF → ¬validCell s.station.config.node slot image →
                exec (.cellReceived image) s = .next (decided slot { judged with counters.bad := up s.counters.bad }))
            ∧ (∀ src : Node, imageByte image 0 ≠ 0xFF → validCell s.station.config.node slot image →
                (readCell image).source.toNat = src.val → ownerChecked slot s → ¬ownedBy slot src s →
                exec (.cellReceived image) s = .next { judged with counters.foreign := up s.counters.foreign })
            ∧ (∀ src : Node, goodCell slot image src s → sameEpoch (readCell image) src s → ¬notice (readCell image) s →
                (readCell image).kind = 1 ∨ ((readCell image).kind = 2 ∧ ¬dataForUs (readCell image) s) →
                exec (.cellReceived image) s = .next (heard slot s))

/-- The epoch step of a good cell of any kind (R78): a new epoch forgets the source's last number, drops what is owed to it and abandons its context
without a break, and replaces a recorded epoch with a PEER_EPOCH event; the cell then goes on as a cell of the new epoch. -/
def Obligations.NewEpochsAreTakenFirst : Prop :=
  ∀ (slot : Slot) (image : List Byte) (src : Node) (s : State), goodCell slot image src s → ¬sameEpoch (readCell image) src s →
    let epoch := (readCell image).epoch
    let forgotten : State :=
      abandoned src
        { s with
          rx.peers := s.rx.peers.set src.val { epoch := some epoch, lastAccepted := none }
          rx.owed := s.rx.owed.filter (fun o => o.source != src) }
    ((s.rx.peers.get src).epoch = none → exec (.cellReceived image) s = exec (.cellReceived image) forgotten)
      ∧ (∀ old, (s.rx.peers.get src).epoch = some old →
          exec (.cellReceived image) s = exec (.cellReceived image) (offered (.peerEpoch src old epoch) forgotten))

/-- An acknowledgement notice is applied before the rest of its cell (R29, R31, R83, R85): the record it matches loses the node from its pending set
and ends DELIVERED when that was the last one and no pass runs; the node's open-number set becomes that number alone; and a notice that matches
nothing is only counted. -/
def Obligations.NoticesAreAppliedFirst : Prop :=
  ∀ (slot : Slot) (image : List Byte) (src : Node) (s : State), goodCell slot image src s → sameEpoch (readCell image) src s →
    notice (readCell image) s →
    let n := (readCell image).ackNumber
    let silent : List Byte := encodeCell { readCell image with ackValid := false }
    let matching : Record → Bool := fun r =>
      r.ackreq && decide (begun r) && decide (r.number = some n) && r.pendingSet.getLsbD src.val
    (s.tx.records.find? matching = none →
        exec (.cellReceived image) s
          = exec (.cellReceived silent) { s with counters.staleAcks := up s.counters.staleAcks })
      ∧ ∀ r, s.tx.records.find? matching = some r →
          let left : Record := { r with pendingSet := r.pendingSet &&& ~~~(1#12 <<< src.val) }
          let opened : State := { s with tx.openSets := s.tx.openSets.set src.val (1#16 <<< n.toNat) }
          (left.pendingSet = 0 → r.state ≠ .sending →
              exec (.cellReceived image) s = exec (.cellReceived silent) (ended left .delivered opened))
            ∧ (left.pendingSet ≠ 0 ∨ r.state = .sending →
                exec (.cellReceived image) s = exec (.cellReceived silent) (replaced left opened))

/-- The FIRST cell of a message addressed to this part (R79, R80, R103 to R106, R109): an unfinished message of the source is a break; a repeat of the last
accepted number is counted and acknowledged again; a message without room is refused and consumed; and one with room takes its blocks and, if it has
one cell, completes into the mailbox. -/
def Obligations.FirstCellsStartMessages : Prop :=
  ∀ (slot : Slot) (image : List Byte) (src : Node) (s : State), goodCell slot image src s → sameEpoch (readCell image) src s →
    ¬notice (readCell image) s → dataForUs (readCell image) s → (readCell image).first = true →
    let c := readCell image
    let length := c.total.toNat
    let idle : Prop := s.rx.contexts.get src = .idle
    let broken : State := { abandoned src (heard slot s) with counters.breaks := up s.counters.breaks }
    let next (t : State) : Prop := exec (.cellReceived image) s = .next t
    let consumed : Context := if c.last then .idle else .discarding 0
    let repeated : Prop := c.ackreq = true ∧ (s.rx.peers.get src).lastAccepted = some c.number
    let start : State → Prop := fun u =>
      (repeated →
          next (withContext src consumed (owing src c.number c.epoch { u with counters.duplicates := up s.counters.duplicates })))
        ∧ (¬repeated → ¬roomFor length u →
            next (withContext src consumed
              { u with
                counters.noRoom := up s.counters.noRoom
                rx.lossCount := if c.ackreq then s.rx.lossCount else upByte s.rx.lossCount }))
        ∧ (¬repeated → roomFor length u → c.last = false →
            next (withContext src
              (.assembling
                { nextIndex := 1, total := length, bytes := c.payload.take (min 16 length), tag := c.tag, ackreq := c.ackreq
                  number := c.number, frames := 0 })
              { u with rx.freeBlocks := u.rx.freeBlocks - blocks length }))
        ∧ (¬repeated → roomFor length u → c.last = true →
            let entry : Entry :=
              { source := src, tag := c.tag, payload := c.payload.take (min 16 length), ackreq := c.ackreq
                lostBefore := s.rx.lossCount, frame := s.link.frame }
            let kept : State :=
              withContext src .idle
                { u with
                  rx.freeBlocks := u.rx.freeBlocks - blocks length
                  rx.mailbox := s.rx.mailbox ++ [entry]
                  rx.lossCount := 0 }
            (c.ackreq = false → next kept)
              ∧ (c.ackreq = true →
                  next (owing src c.number c.epoch
                    { kept with rx.peers := s.rx.peers.set src.val { epoch := some c.epoch, lastAccepted := some c.number } })))
    (idle → start (heard slot s)) ∧ (¬idle → start broken)

/-- A later cell of a message addressed to this part (R80, R102, R106 to R109): it is appended to the message it continues and completes it at the LAST
cell; it breaks a message it does not fit, is consumed by a refused or repeated one, and counts as a break with none in progress. -/
def Obligations.LaterCellsContinueMessages : Prop :=
  ∀ (slot : Slot) (image : List Byte) (src : Node) (s : State), goodCell slot image src s → sameEpoch (readCell image) src s →
    ¬notice (readCell image) s → dataForUs (readCell image) s → (readCell image).first = false →
    let c := readCell image
    let u := heard slot s
    let next (t : State) : Prop := exec (.cellReceived image) s = .next t
    (s.rx.contexts.get src = .idle → next { u with counters.breaks := up s.counters.breaks })
      ∧ (∀ frames, s.rx.contexts.get src = .discarding frames →
          next (withContext src (if c.last then .idle else .discarding 0) u))
      ∧ ∀ a, s.rx.contexts.get src = .assembling a →
          let fits : Prop :=
            c.index.toNat = a.nextIndex ∧ c.total.toNat = a.total ∧ c.ackreq = a.ackreq ∧ c.number = a.number ∧ c.tag = a.tag
          let bytes := a.bytes ++ c.payload.take (min 16 (a.total - 16 * a.nextIndex))
          (¬fits → next { abandoned src u with counters.breaks := up s.counters.breaks })
            ∧ (fits → c.last = false →
                next (withContext src
                  (.assembling { a with nextIndex := a.nextIndex + 1, bytes := bytes, frames := 0 }) u))
            ∧ (fits → c.last = true →
                let entry : Entry :=
                  { source := src, tag := a.tag, payload := bytes, ackreq := a.ackreq, lostBefore := s.rx.lossCount
                    frame := s.link.frame }
                let kept : State :=
                  withContext src .idle { u with rx.mailbox := s.rx.mailbox ++ [entry], rx.lossCount := 0 }
                (a.ackreq = false → next kept)
                  ∧ (a.ackreq = true →
                      next (owing src a.number c.epoch
                        { kept with rx.peers := s.rx.peers.set src.val { epoch := some c.epoch, lastAccepted := some a.number } })))

/-- A good control cell on a member (R7, R9, R29, R30, R44): it is counted, becomes the frame's control record, writes the frame number, sets the
control-cell flag and names the master node; with unusable map content it does no more to the maps.  With its source's epoch recorded and no notice in
it, it touches nothing else but the maps and their event, and then an open permission decision is made (R17, R18). -/
def Obligations.ControlCellsAreHeard : Prop :=
  ∀ (slot : Slot) (image : List Byte) (src : Node) (s : State), goodCell slot image src s → (readCell image).kind = 3 →
    s.station.config.role = .member →
    ∃ t, exec (.cellReceived image) s = .next t
      ∧ t.rx.controlRecord = some (readContent (readCell image).payload).current
      ∧ t.link.frame = (readContent (readCell image).payload).frame ∧ t.link.controlFlag = true
      ∧ t.map.masterNode = some src ∧ t.link.lock = s.link.lock ∧ t.station = s.station
      ∧ t.map.frameGeneration = s.map.frameGeneration ∧ t.map.staged = s.map.staged ∧ t.map.outcome = s.map.outcome
      ∧ t.map.content = s.map.content ∧ t.counters.good = up s.counters.good
      ∧ (unusable (readContent (readCell image).payload) → t.map = { s.map with masterNode := some src })
      ∧ (sameEpoch (readCell image) src s → ¬notice (readCell image) s →
          t = decided slot
              { heard slot s with
                rx.controlRecord := some (readContent (readCell image).payload).current
                link.frame := (readContent (readCell image).payload).frame
                link.controlFlag := true
                map := t.map
                events := t.events
                counters.eventsLost := t.counters.eventsLost }
            ∧ (unusable (readContent (readCell image).payload) →
                t.events = s.events ∧ t.counters.eventsLost = s.counters.eventsLost))

/-- Usable map content on a member (R45, R46, R47): the rate code is kept; a pending map no longer announced is given up; a carried current map of another
generation is adopted with a MAP_RESYNC event; a carried pending map is stored without an event. -/
def Obligations.MembersFollowTheMap : Prop :=
  ∀ (slot : Slot) (image : List Byte) (src : Node) (s : State), goodCell slot image src s → (readCell image).kind = 3 →
    s.station.config.role = .member → sameEpoch (readCell image) src s → ¬notice (readCell image) s →
    let c := readContent (readCell image).payload
    ¬unusable c →
    ∃ t, exec (.cellReceived image) s = .next t ∧ (∃ rate, t.map.masterRate = some rate ∧ rate.toNat = c.rate.toNat)
      ∧ t.map.frameGeneration = s.map.frameGeneration
      ∧ (c.carriesPending = false →
          t.map.pendingMap = (match s.map.pendingMap with
              | none => none
              | some p => if givesUp c p then none else some p)
            ∧ (generationOf s = some c.generation →
                t.map.active = s.map.active ∧ t.events = s.events ∧ t.counters.eventsLost = s.counters.eventsLost)
            ∧ (generationOf s ≠ some c.generation →
                (∃ m, t.map.active = some m ∧ carries c m)
                  ∧ t.events = (offered (.mapResync (generationOf s) c.generation) { s with link.frame := c.frame }).events
                  ∧ t.counters.eventsLost = (offered (.mapResync (generationOf s) c.generation) s).counters.eventsLost))
      ∧ (c.carriesPending = true →
          t.map.active = s.map.active ∧ t.events = s.events ∧ t.counters.eventsLost = s.counters.eventsLost
            ∧ ∃ p, t.map.pendingMap = some p ∧ p.effective = c.effective ∧ carries c p.map)

/-- A member's permission for a frame begun at a counted boundary is decided when slot 0's image has been judged (R17, R18): granted exactly if it is LOCKED
and the frame's control cell announced the frame generation; a refusal is a silent frame. -/
def Obligations.PermissionIsDecidedAfterSlotZero : Prop :=
  ∀ (image : List Byte) (slot : Slot) (s : State), s.due = [] → s.rx.receiving = some slot → slot.val = 0 → s.link.decisionDue = true →
    ∃ t, exec (.cellReceived image) s = .next t ∧ t.link.decisionDue = false
      ∧ (t.link.permission = true ↔
          s.link.lock = .locked ∧ t.rx.controlRecord.isSome = true ∧ t.rx.controlRecord = s.map.frameGeneration)
      ∧ t.counters.silentFrames = (if t.link.permission then s.counters.silentFrames else up s.counters.silentFrames)

/-! ## The work of a boundary -/

/-- What runs out at a boundary (R71, R87, R110): a QUEUED record produces EXPIRED; an AWAITING record enters RETRY behind the others while its attempts are
within the retry limit, and else produces FAILED with every destination pending and PARTIAL otherwise; a context is abandoned, with a break if it was
ASSEMBLING.  At a boundary that completes a detach, the Transmit Scheduler's work is marked as begun (R163, log entry 2). -/
def Obligations.BoundaryTimersRunOut : Prop :=
  (∀ (k : Ticket) (r : Record) (s : State), Work.lifetime k ∈ s.due → named k r s → r.state = .queued →
      exec (.lifetimeExpiry k) s = .next (ended r .expired
        { s with
          due := s.due.erase (.lifetime k)
          schedulerBegun := s.schedulerBegun || decide (Work.completion ∈ s.due) }))
    ∧ (∀ (k : Ticket) (r : Record) (s : State), Work.ackTimer k ∈ s.due → named k r s → r.state = .awaiting →
        let u : State :=
          { s with
            due := s.due.erase (.ackTimer k)
            schedulerBegun := s.schedulerBegun || decide (Work.completion ∈ s.due) }
        (r.attempts ≤ s.station.config.retryLimit →
            exec (.ackTimerExpiry k) s
              = .next (replaced { r with state := .retry, ackTimer := 0 } { u with tx.retryOrder := s.tx.retryOrder ++ [k] }))
          ∧ (s.station.config.retryLimit < r.attempts → r.pendingSet = r.dest →
              exec (.ackTimerExpiry k) s = .next (ended r .failed u))
          ∧ (s.station.config.retryLimit < r.attempts → r.pendingSet ≠ r.dest →
              exec (.ackTimerExpiry k) s = .next (ended r .partly u)))
    ∧ ∀ (n : Node) (s : State), Work.reassembly n ∈ s.due → gone16 (s.rx.contexts.get n) →
        let u : State := { s with due := s.due.erase (.reassembly n) }
        (∀ a, s.rx.contexts.get n = .assembling a →
            exec (.reassemblyTimeout n) s = .next { abandoned n u with counters.breaks := up s.counters.breaks })
          ∧ (∀ frames, s.rx.contexts.get n = .discarding frames → exec (.reassemblyTimeout n) s = .next (abandoned n u))

/-- The switch at the boundary that begins the effective frame (R35, R39, R41, R48): the pending map becomes active with its generation, MAP_APPLIED is
offered, the frame generation follows, and on a master the outcome becomes APPLIED and the control content of the frame that begins is
composed with the new map and none pending (R42). -/
def Obligations.MapSwitchesAtItsEffectiveFrame : Prop :=
  ∀ (s : State) (p : PendingMap), Work.mapSwitch ∈ s.due → s.map.pendingMap = some p →
    ∃ t, exec .mapSwitch s = .next t
      ∧ (let u := offered (.mapApplied p.map.generation p.effective) { s with due := s.due.erase .mapSwitch }
        t = { u with
              map :=
                { s.map with
                  active := some p.map
                  pendingMap := none
                  frameGeneration := some p.map.generation
                  outcome := if s.station.config.role = .master then .applied else s.map.outcome
                  content := t.map.content } })
      ∧ (s.station.config.role = .member → t.map.content = s.map.content)
      ∧ (s.station.config.role = .master →
          ∃ bytes, t.map.content = some bytes ∧ contentFor s.link.frame s.station.config.rateCode p.map none bytes)

/-- The completion of a detach (R53, R75, R115, R162): every record is FLUSHED in order of acceptance, the owed acknowledgements, contexts, control record
and pending map go, a member's active map goes and a master's stays, the link is released with its frame number kept, DETACHED is offered with the
number flushed, and the station is DETACHED; the rest is kept.  The Transmit Scheduler's work at that boundary comes before the completion as
a whole or not at all (R163): where it has begun, its outstanding items are done one by one, and then the completion; what the completion
does is stated where none of it is done, or all.  The mark that it has begun, and the draws of the order of what is left of it, are the
model's choice (log entries 2 and 3). -/
def Obligations.DetachCompletionInItsStages : Prop :=
  (∀ s : State, Work.completion ∈ s.due → s.schedulerBegun = true → (∃ w ∈ s.due, ofTransmitScheduler w) →
      ∃ w ∈ s.due, ofTransmitScheduler w ∧ ∃ u, exec (workCommand w) { s with choices := s.choices + 1 } = .next u
        ∧ Work.completion ∈ u.due ∧ u.schedulerBegun = true ∧ u.due = s.due.erase w
        ∧ exec .detachCompletion s = exec .detachCompletion u)
    ∧ ∀ s : State, Work.completion ∈ s.due → (s.schedulerBegun = true → ∀ w ∈ s.due, ¬ofTransmitScheduler w) →
    ∃ t, exec .detachCompletion s = .next t
      ∧ t.station = { s.station with state := .detached } ∧ t.due = [] ∧ t.schedulerBegun = false
      ∧ t.tx = { s.tx with
          records := []
          retryOrder := []
          cell := none
          freeBlocks := s.tx.freeBlocks + (s.tx.records.map fun r => blocks r.payload.length).sum }
      ∧ (∀ n : Node, t.rx.contexts.get n = .idle)
      ∧ t.rx = { s.rx with
          owed := []
          controlRecord := none
          receiving := none
          contexts := t.rx.contexts
          freeBlocks := s.rx.freeBlocks + (s.rx.contexts.toList.map held).sum }
      ∧ t.link =
          { lock := .off, frame := s.link.frame, position := none, missed := 0, controlFlag := false, permission := false
            decisionDue := false, nextSlot := 0 }
      ∧ t.map.pendingMap = none ∧ t.map.staged = s.map.staged
      ∧ t.map.outcome = (if s.map.pendingMap.isSome then .nothing else s.map.outcome)
      ∧ (s.station.config.role = .member →
          t.map.active = none ∧ t.map.frameGeneration = none ∧ t.map.masterNode = none ∧ t.map.masterRate = none)
      ∧ (s.station.config.role = .master →
          t.map.active = s.map.active ∧ t.map.frameGeneration = generationOf s ∧ t.map.masterNode = s.map.masterNode
            ∧ t.map.masterRate = s.map.masterRate)
      ∧ (let flushed := s.tx.records.foldl (fun u r => placed (resultOf r .flushed) u) s
        t.events = (offered (.detached s.tx.records.length) flushed).events
          ∧ t.counters = (offered (.detached s.tx.records.length) flushed).counters)
      ∧ t.host = s.host ∧ t.phase = s.phase

/-! ## The laws of the part -/

/-- Laws 1, 2, 5, 6, 7 and the outbound half of law 4 are kept by every command, from every state that meets them. -/
def Obligations.OutboundLawsAreKept : Prop :=
  ∀ (c : Instr) (s t : State), outboundSound s → exec c s = .next t → outboundSound t

/-- Laws 3 and 9 and the inbound half of law 4 are kept by every command, from every state that meets them. -/
def Obligations.InboundLawsAreKept : Prop :=
  ∀ (c : Instr) (s t : State), receiveAccounts s → exec c s = .next t → receiveAccounts t

/-- Station state, role, lock state, permission and map go together as the chapters say, and every command keeps them so, from every state in which they
do. -/
def Obligations.StationAndLinkAgree : Prop :=
  ∀ (c : Instr) (s t : State), stationLinkSound s → exec c s = .next t → stationLinkSound t

/-- A request waits only behind a reply in transmission, the reply in transmission is the kept one, and a frame in progress is not over; every command
keeps this, from every state in which it holds. -/
def Obligations.HostLineStaysSound : Prop :=
  ∀ (c : Instr) (s t : State), hostSound s → exec c s = .next t → hostSound t

/-- Law 8 (R73): unless a reset comes first, a record leaves the queue exactly by its one result: the events that a command places bear, among the results,
just the tickets of the records that it removes; and no event leaves the queue but the oldest. -/
def Obligations.EveryRecordEndsInOneResult : Prop :=
  ∀ (c : Instr) (s t : State), queueAccounts s → exec c s = .next t →
    (∀ straps, c = .pinResetRelease straps → s.phase ≠ .held) → (∀ reply, s.host.sending = some reply → reply.resets = true → c ≠ .resetTakesEffect ∧ c ≠ .replyTransmissionEnd) →
    ∃ new k, k ≤ 1 ∧ t.events.records = (s.events.records ++ new).drop k
      ∧ (s.tx.records.map fun r => r.ticket).Perm
          (resultTickets new ++ ((t.tx.records.map fun r => r.ticket).filter fun x =>
            s.tx.records.any fun r => r.ticket == x && !(resultTickets new).contains x))
end

