-- ==== Sys2Proof/Laws/State.lean ====
section
/-! SUPPORT. Field by field, what the plain updates of the state leave as it was.  Each is true by `rfl`. -/
namespace Sys2Proof.Machine

@[simp] theorem pushEvent_phase (k : EventKind) (s : State) : (pushEvent k s).phase = s.phase := rfl
@[simp] theorem pushEvent_station (k : EventKind) (s : State) : (pushEvent k s).station = s.station := rfl
@[simp] theorem pushEvent_link (k : EventKind) (s : State) : (pushEvent k s).link = s.link := rfl
@[simp] theorem pushEvent_map (k : EventKind) (s : State) : (pushEvent k s).map = s.map := rfl
@[simp] theorem pushEvent_tx (k : EventKind) (s : State) : (pushEvent k s).tx = s.tx := rfl
@[simp] theorem pushEvent_rx (k : EventKind) (s : State) : (pushEvent k s).rx = s.rx := rfl
@[simp] theorem pushEvent_host (k : EventKind) (s : State) : (pushEvent k s).host = s.host := rfl
@[simp] theorem pushEvent_counters (k : EventKind) (s : State) : (pushEvent k s).counters = s.counters := rfl
@[simp] theorem pushEvent_due (k : EventKind) (s : State) : (pushEvent k s).due = s.due := rfl
@[simp] theorem pushEvent_schedulerBegun (k : EventKind) (s : State) : (pushEvent k s).schedulerBegun = s.schedulerBegun := rfl
@[simp] theorem pushEvent_choices (k : EventKind) (s : State) : (pushEvent k s).choices = s.choices := rfl
@[simp] theorem pushEvent_pending (k : EventKind) (s : State) : (pushEvent k s).pending = s.pending := rfl

@[simp] theorem putRecord_phase (r : Record) (s : State) : (putRecord r s).phase = s.phase := rfl
@[simp] theorem putRecord_station (r : Record) (s : State) : (putRecord r s).station = s.station := rfl
@[simp] theorem putRecord_link (r : Record) (s : State) : (putRecord r s).link = s.link := rfl
@[simp] theorem putRecord_map (r : Record) (s : State) : (putRecord r s).map = s.map := rfl
@[simp] theorem putRecord_rx (r : Record) (s : State) : (putRecord r s).rx = s.rx := rfl
@[simp] theorem putRecord_events (r : Record) (s : State) : (putRecord r s).events = s.events := rfl
@[simp] theorem putRecord_host (r : Record) (s : State) : (putRecord r s).host = s.host := rfl
@[simp] theorem putRecord_counters (r : Record) (s : State) : (putRecord r s).counters = s.counters := rfl
@[simp] theorem putRecord_due (r : Record) (s : State) : (putRecord r s).due = s.due := rfl
@[simp] theorem putRecord_schedulerBegun (r : Record) (s : State) : (putRecord r s).schedulerBegun = s.schedulerBegun := rfl
@[simp] theorem putRecord_choices (r : Record) (s : State) : (putRecord r s).choices = s.choices := rfl
@[simp] theorem putRecord_pending (r : Record) (s : State) : (putRecord r s).pending = s.pending := rfl

@[simp] theorem finishRecord_phase (r : Record) (o : ResultOutcome) (s : State) : (finishRecord r o s).phase = s.phase := rfl
@[simp] theorem finishRecord_station (r : Record) (o : ResultOutcome) (s : State) : (finishRecord r o s).station = s.station := rfl
@[simp] theorem finishRecord_link (r : Record) (o : ResultOutcome) (s : State) : (finishRecord r o s).link = s.link := rfl
@[simp] theorem finishRecord_map (r : Record) (o : ResultOutcome) (s : State) : (finishRecord r o s).map = s.map := rfl
@[simp] theorem finishRecord_rx (r : Record) (o : ResultOutcome) (s : State) : (finishRecord r o s).rx = s.rx := rfl
@[simp] theorem finishRecord_host (r : Record) (o : ResultOutcome) (s : State) : (finishRecord r o s).host = s.host := rfl
@[simp] theorem finishRecord_counters (r : Record) (o : ResultOutcome) (s : State) : (finishRecord r o s).counters = s.counters := rfl
@[simp] theorem finishRecord_due (r : Record) (o : ResultOutcome) (s : State) : (finishRecord r o s).due = s.due := rfl
@[simp] theorem finishRecord_schedulerBegun (r : Record) (o : ResultOutcome) (s : State) : (finishRecord r o s).schedulerBegun = s.schedulerBegun := rfl
@[simp] theorem finishRecord_choices (r : Record) (o : ResultOutcome) (s : State) : (finishRecord r o s).choices = s.choices := rfl
@[simp] theorem finishRecord_pending (r : Record) (o : ResultOutcome) (s : State) : (finishRecord r o s).pending = s.pending := rfl

@[simp] theorem oweAck_phase (n : Node) (k : Nibble) (s : State) : (oweAck n k s).phase = s.phase := rfl
@[simp] theorem oweAck_station (n : Node) (k : Nibble) (s : State) : (oweAck n k s).station = s.station := rfl
@[simp] theorem oweAck_link (n : Node) (k : Nibble) (s : State) : (oweAck n k s).link = s.link := rfl
@[simp] theorem oweAck_map (n : Node) (k : Nibble) (s : State) : (oweAck n k s).map = s.map := rfl
@[simp] theorem oweAck_tx (n : Node) (k : Nibble) (s : State) : (oweAck n k s).tx = s.tx := rfl
@[simp] theorem oweAck_events (n : Node) (k : Nibble) (s : State) : (oweAck n k s).events = s.events := rfl
@[simp] theorem oweAck_host (n : Node) (k : Nibble) (s : State) : (oweAck n k s).host = s.host := rfl
@[simp] theorem oweAck_counters (n : Node) (k : Nibble) (s : State) : (oweAck n k s).counters = s.counters := rfl
@[simp] theorem oweAck_due (n : Node) (k : Nibble) (s : State) : (oweAck n k s).due = s.due := rfl
@[simp] theorem oweAck_schedulerBegun (n : Node) (k : Nibble) (s : State) : (oweAck n k s).schedulerBegun = s.schedulerBegun := rfl
@[simp] theorem oweAck_choices (n : Node) (k : Nibble) (s : State) : (oweAck n k s).choices = s.choices := rfl
@[simp] theorem oweAck_pending (n : Node) (k : Nibble) (s : State) : (oweAck n k s).pending = s.pending := rfl

@[simp] theorem setContext_phase (n : Node) (c : Context) (s : State) : (setContext n c s).phase = s.phase := rfl
@[simp] theorem setContext_station (n : Node) (c : Context) (s : State) : (setContext n c s).station = s.station := rfl
@[simp] theorem setContext_link (n : Node) (c : Context) (s : State) : (setContext n c s).link = s.link := rfl
@[simp] theorem setContext_map (n : Node) (c : Context) (s : State) : (setContext n c s).map = s.map := rfl
@[simp] theorem setContext_tx (n : Node) (c : Context) (s : State) : (setContext n c s).tx = s.tx := rfl
@[simp] theorem setContext_events (n : Node) (c : Context) (s : State) : (setContext n c s).events = s.events := rfl
@[simp] theorem setContext_host (n : Node) (c : Context) (s : State) : (setContext n c s).host = s.host := rfl
@[simp] theorem setContext_counters (n : Node) (c : Context) (s : State) : (setContext n c s).counters = s.counters := rfl
@[simp] theorem setContext_due (n : Node) (c : Context) (s : State) : (setContext n c s).due = s.due := rfl
@[simp] theorem setContext_schedulerBegun (n : Node) (c : Context) (s : State) : (setContext n c s).schedulerBegun = s.schedulerBegun := rfl
@[simp] theorem setContext_choices (n : Node) (c : Context) (s : State) : (setContext n c s).choices = s.choices := rfl
@[simp] theorem setContext_pending (n : Node) (c : Context) (s : State) : (setContext n c s).pending = s.pending := rfl

@[simp] theorem abandonContext_phase (n : Node) (s : State) : (abandonContext n s).phase = s.phase := rfl
@[simp] theorem abandonContext_station (n : Node) (s : State) : (abandonContext n s).station = s.station := rfl
@[simp] theorem abandonContext_link (n : Node) (s : State) : (abandonContext n s).link = s.link := rfl
@[simp] theorem abandonContext_map (n : Node) (s : State) : (abandonContext n s).map = s.map := rfl
@[simp] theorem abandonContext_tx (n : Node) (s : State) : (abandonContext n s).tx = s.tx := rfl
@[simp] theorem abandonContext_events (n : Node) (s : State) : (abandonContext n s).events = s.events := rfl
@[simp] theorem abandonContext_host (n : Node) (s : State) : (abandonContext n s).host = s.host := rfl
@[simp] theorem abandonContext_counters (n : Node) (s : State) : (abandonContext n s).counters = s.counters := rfl
@[simp] theorem abandonContext_due (n : Node) (s : State) : (abandonContext n s).due = s.due := rfl
@[simp] theorem abandonContext_schedulerBegun (n : Node) (s : State) : (abandonContext n s).schedulerBegun = s.schedulerBegun := rfl
@[simp] theorem abandonContext_choices (n : Node) (s : State) : (abandonContext n s).choices = s.choices := rfl
@[simp] theorem abandonContext_pending (n : Node) (s : State) : (abandonContext n s).pending = s.pending := rfl

@[simp] theorem countBreak_phase (s : State) : (countBreak s).phase = s.phase := rfl
@[simp] theorem countBreak_station (s : State) : (countBreak s).station = s.station := rfl
@[simp] theorem countBreak_link (s : State) : (countBreak s).link = s.link := rfl
@[simp] theorem countBreak_map (s : State) : (countBreak s).map = s.map := rfl
@[simp] theorem countBreak_tx (s : State) : (countBreak s).tx = s.tx := rfl
@[simp] theorem countBreak_rx (s : State) : (countBreak s).rx = s.rx := rfl
@[simp] theorem countBreak_events (s : State) : (countBreak s).events = s.events := rfl
@[simp] theorem countBreak_host (s : State) : (countBreak s).host = s.host := rfl
@[simp] theorem countBreak_due (s : State) : (countBreak s).due = s.due := rfl
@[simp] theorem countBreak_schedulerBegun (s : State) : (countBreak s).schedulerBegun = s.schedulerBegun := rfl
@[simp] theorem countBreak_choices (s : State) : (countBreak s).choices = s.choices := rfl
@[simp] theorem countBreak_pending (s : State) : (countBreak s).pending = s.pending := rfl

@[simp] theorem closeNumber_phase (k : Nibble) (d : NodeSet) (s : State) : (closeNumber k d s).phase = s.phase := rfl
@[simp] theorem closeNumber_station (k : Nibble) (d : NodeSet) (s : State) : (closeNumber k d s).station = s.station := rfl
@[simp] theorem closeNumber_link (k : Nibble) (d : NodeSet) (s : State) : (closeNumber k d s).link = s.link := rfl
@[simp] theorem closeNumber_map (k : Nibble) (d : NodeSet) (s : State) : (closeNumber k d s).map = s.map := rfl
@[simp] theorem closeNumber_rx (k : Nibble) (d : NodeSet) (s : State) : (closeNumber k d s).rx = s.rx := rfl
@[simp] theorem closeNumber_events (k : Nibble) (d : NodeSet) (s : State) : (closeNumber k d s).events = s.events := rfl
@[simp] theorem closeNumber_host (k : Nibble) (d : NodeSet) (s : State) : (closeNumber k d s).host = s.host := rfl
@[simp] theorem closeNumber_counters (k : Nibble) (d : NodeSet) (s : State) : (closeNumber k d s).counters = s.counters := rfl
@[simp] theorem closeNumber_due (k : Nibble) (d : NodeSet) (s : State) : (closeNumber k d s).due = s.due := rfl
@[simp] theorem closeNumber_schedulerBegun (k : Nibble) (d : NodeSet) (s : State) : (closeNumber k d s).schedulerBegun = s.schedulerBegun := rfl
@[simp] theorem closeNumber_choices (k : Nibble) (d : NodeSet) (s : State) : (closeNumber k d s).choices = s.choices := rfl
@[simp] theorem closeNumber_pending (k : Nibble) (d : NodeSet) (s : State) : (closeNumber k d s).pending = s.pending := rfl

@[simp] theorem setFrameGeneration_phase (s : State) : (setFrameGeneration s).phase = s.phase := rfl
@[simp] theorem setFrameGeneration_station (s : State) : (setFrameGeneration s).station = s.station := rfl
@[simp] theorem setFrameGeneration_link (s : State) : (setFrameGeneration s).link = s.link := rfl
@[simp] theorem setFrameGeneration_tx (s : State) : (setFrameGeneration s).tx = s.tx := rfl
@[simp] theorem setFrameGeneration_rx (s : State) : (setFrameGeneration s).rx = s.rx := rfl
@[simp] theorem setFrameGeneration_events (s : State) : (setFrameGeneration s).events = s.events := rfl
@[simp] theorem setFrameGeneration_host (s : State) : (setFrameGeneration s).host = s.host := rfl
@[simp] theorem setFrameGeneration_counters (s : State) : (setFrameGeneration s).counters = s.counters := rfl
@[simp] theorem setFrameGeneration_due (s : State) : (setFrameGeneration s).due = s.due := rfl
@[simp] theorem setFrameGeneration_schedulerBegun (s : State) : (setFrameGeneration s).schedulerBegun = s.schedulerBegun := rfl
@[simp] theorem setFrameGeneration_choices (s : State) : (setFrameGeneration s).choices = s.choices := rfl
@[simp] theorem setFrameGeneration_pending (s : State) : (setFrameGeneration s).pending = s.pending := rfl

@[simp] theorem storePending_phase (c : ControlContent) (s : State) : (storePending c s).phase = s.phase := rfl
@[simp] theorem storePending_station (c : ControlContent) (s : State) : (storePending c s).station = s.station := rfl
@[simp] theorem storePending_link (c : ControlContent) (s : State) : (storePending c s).link = s.link := rfl
@[simp] theorem storePending_tx (c : ControlContent) (s : State) : (storePending c s).tx = s.tx := rfl
@[simp] theorem storePending_rx (c : ControlContent) (s : State) : (storePending c s).rx = s.rx := rfl
@[simp] theorem storePending_events (c : ControlContent) (s : State) : (storePending c s).events = s.events := rfl
@[simp] theorem storePending_host (c : ControlContent) (s : State) : (storePending c s).host = s.host := rfl
@[simp] theorem storePending_counters (c : ControlContent) (s : State) : (storePending c s).counters = s.counters := rfl
@[simp] theorem storePending_due (c : ControlContent) (s : State) : (storePending c s).due = s.due := rfl
@[simp] theorem storePending_schedulerBegun (c : ControlContent) (s : State) : (storePending c s).schedulerBegun = s.schedulerBegun := rfl
@[simp] theorem storePending_choices (c : ControlContent) (s : State) : (storePending c s).choices = s.choices := rfl
@[simp] theorem storePending_pending (c : ControlContent) (s : State) : (storePending c s).pending = s.pending := rfl

@[simp] theorem abandonAll_phase (s : State) : (abandonAll s).phase = s.phase := rfl
@[simp] theorem abandonAll_station (s : State) : (abandonAll s).station = s.station := rfl
@[simp] theorem abandonAll_link (s : State) : (abandonAll s).link = s.link := rfl
@[simp] theorem abandonAll_map (s : State) : (abandonAll s).map = s.map := rfl
@[simp] theorem abandonAll_tx (s : State) : (abandonAll s).tx = s.tx := rfl
@[simp] theorem abandonAll_events (s : State) : (abandonAll s).events = s.events := rfl
@[simp] theorem abandonAll_host (s : State) : (abandonAll s).host = s.host := rfl
@[simp] theorem abandonAll_counters (s : State) : (abandonAll s).counters = s.counters := rfl
@[simp] theorem abandonAll_due (s : State) : (abandonAll s).due = s.due := rfl
@[simp] theorem abandonAll_schedulerBegun (s : State) : (abandonAll s).schedulerBegun = s.schedulerBegun := rfl
@[simp] theorem abandonAll_choices (s : State) : (abandonAll s).choices = s.choices := rfl
@[simp] theorem abandonAll_pending (s : State) : (abandonAll s).pending = s.pending := rfl

@[simp] theorem driveCell_phase (k : Slot) (c : Cell) (e : Option Ticket) (s : State) : (driveCell k c e s).phase = s.phase := rfl
@[simp] theorem driveCell_station (k : Slot) (c : Cell) (e : Option Ticket) (s : State) : (driveCell k c e s).station = s.station := rfl
@[simp] theorem driveCell_link (k : Slot) (c : Cell) (e : Option Ticket) (s : State) : (driveCell k c e s).link = s.link := rfl
@[simp] theorem driveCell_map (k : Slot) (c : Cell) (e : Option Ticket) (s : State) : (driveCell k c e s).map = s.map := rfl
@[simp] theorem driveCell_events (k : Slot) (c : Cell) (e : Option Ticket) (s : State) : (driveCell k c e s).events = s.events := rfl
@[simp] theorem driveCell_host (k : Slot) (c : Cell) (e : Option Ticket) (s : State) : (driveCell k c e s).host = s.host := rfl
@[simp] theorem driveCell_counters (k : Slot) (c : Cell) (e : Option Ticket) (s : State) : (driveCell k c e s).counters = s.counters := rfl
@[simp] theorem driveCell_due (k : Slot) (c : Cell) (e : Option Ticket) (s : State) : (driveCell k c e s).due = s.due := rfl
@[simp] theorem driveCell_schedulerBegun (k : Slot) (c : Cell) (e : Option Ticket) (s : State) : (driveCell k c e s).schedulerBegun = s.schedulerBegun := rfl
@[simp] theorem driveCell_choices (k : Slot) (c : Cell) (e : Option Ticket) (s : State) : (driveCell k c e s).choices = s.choices := rfl
@[simp] theorem driveCell_pending (k : Slot) (c : Cell) (e : Option Ticket) (s : State) : (driveCell k c e s).pending = s.pending := rfl

@[simp] theorem assignNumber_phase (k : Nibble) (d : NodeSet) (s : State) : (assignNumber k d s).phase = s.phase := rfl
@[simp] theorem assignNumber_station (k : Nibble) (d : NodeSet) (s : State) : (assignNumber k d s).station = s.station := rfl
@[simp] theorem assignNumber_link (k : Nibble) (d : NodeSet) (s : State) : (assignNumber k d s).link = s.link := rfl
@[simp] theorem assignNumber_map (k : Nibble) (d : NodeSet) (s : State) : (assignNumber k d s).map = s.map := rfl
@[simp] theorem assignNumber_rx (k : Nibble) (d : NodeSet) (s : State) : (assignNumber k d s).rx = s.rx := rfl
@[simp] theorem assignNumber_events (k : Nibble) (d : NodeSet) (s : State) : (assignNumber k d s).events = s.events := rfl
@[simp] theorem assignNumber_host (k : Nibble) (d : NodeSet) (s : State) : (assignNumber k d s).host = s.host := rfl
@[simp] theorem assignNumber_counters (k : Nibble) (d : NodeSet) (s : State) : (assignNumber k d s).counters = s.counters := rfl
@[simp] theorem assignNumber_due (k : Nibble) (d : NodeSet) (s : State) : (assignNumber k d s).due = s.due := rfl
@[simp] theorem assignNumber_schedulerBegun (k : Nibble) (d : NodeSet) (s : State) : (assignNumber k d s).schedulerBegun = s.schedulerBegun := rfl
@[simp] theorem assignNumber_choices (k : Nibble) (d : NodeSet) (s : State) : (assignNumber k d s).choices = s.choices := rfl
@[simp] theorem assignNumber_pending (k : Nibble) (d : NodeSet) (s : State) : (assignNumber k d s).pending = s.pending := rfl

@[simp] theorem beginCount_phase (s : State) : (beginCount s).phase = s.phase := rfl
@[simp] theorem beginCount_station (s : State) : (beginCount s).station = s.station := rfl
@[simp] theorem beginCount_map (s : State) : (beginCount s).map = s.map := rfl
@[simp] theorem beginCount_tx (s : State) : (beginCount s).tx = s.tx := rfl
@[simp] theorem beginCount_events (s : State) : (beginCount s).events = s.events := rfl
@[simp] theorem beginCount_host (s : State) : (beginCount s).host = s.host := rfl
@[simp] theorem beginCount_counters (s : State) : (beginCount s).counters = s.counters := rfl
@[simp] theorem beginCount_due (s : State) : (beginCount s).due = s.due := rfl
@[simp] theorem beginCount_schedulerBegun (s : State) : (beginCount s).schedulerBegun = s.schedulerBegun := rfl
@[simp] theorem beginCount_choices (s : State) : (beginCount s).choices = s.choices := rfl
@[simp] theorem beginCount_pending (s : State) : (beginCount s).pending = s.pending := rfl

@[simp] theorem takeReference_phase (s : State) : (takeReference s).phase = s.phase := rfl
@[simp] theorem takeReference_station (s : State) : (takeReference s).station = s.station := rfl
@[simp] theorem takeReference_tx (s : State) : (takeReference s).tx = s.tx := rfl
@[simp] theorem takeReference_events (s : State) : (takeReference s).events = s.events := rfl
@[simp] theorem takeReference_host (s : State) : (takeReference s).host = s.host := rfl
@[simp] theorem takeReference_counters (s : State) : (takeReference s).counters = s.counters := rfl
@[simp] theorem takeReference_due (s : State) : (takeReference s).due = s.due := rfl
@[simp] theorem takeReference_schedulerBegun (s : State) : (takeReference s).schedulerBegun = s.schedulerBegun := rfl
@[simp] theorem takeReference_choices (s : State) : (takeReference s).choices = s.choices := rfl
@[simp] theorem takeReference_pending (s : State) : (takeReference s).pending = s.pending := rfl

@[simp] theorem enterSearch_phase (s : State) : (enterSearch s).phase = s.phase := rfl
@[simp] theorem enterSearch_station (s : State) : (enterSearch s).station = s.station := rfl
@[simp] theorem enterSearch_map (s : State) : (enterSearch s).map = s.map := rfl
@[simp] theorem enterSearch_tx (s : State) : (enterSearch s).tx = s.tx := rfl
@[simp] theorem enterSearch_events (s : State) : (enterSearch s).events = s.events := rfl
@[simp] theorem enterSearch_host (s : State) : (enterSearch s).host = s.host := rfl
@[simp] theorem enterSearch_counters (s : State) : (enterSearch s).counters = s.counters := rfl
@[simp] theorem enterSearch_due (s : State) : (enterSearch s).due = s.due := rfl
@[simp] theorem enterSearch_schedulerBegun (s : State) : (enterSearch s).schedulerBegun = s.schedulerBegun := rfl
@[simp] theorem enterSearch_choices (s : State) : (enterSearch s).choices = s.choices := rfl
@[simp] theorem enterSearch_pending (s : State) : (enterSearch s).pending = s.pending := rfl

@[simp] theorem openFrame_phase (s : State) : (openFrame s).phase = s.phase := rfl
@[simp] theorem openFrame_station (s : State) : (openFrame s).station = s.station := rfl
@[simp] theorem openFrame_map (s : State) : (openFrame s).map = s.map := rfl
@[simp] theorem openFrame_tx (s : State) : (openFrame s).tx = s.tx := rfl
@[simp] theorem openFrame_events (s : State) : (openFrame s).events = s.events := rfl
@[simp] theorem openFrame_host (s : State) : (openFrame s).host = s.host := rfl
@[simp] theorem openFrame_counters (s : State) : (openFrame s).counters = s.counters := rfl
@[simp] theorem openFrame_due (s : State) : (openFrame s).due = s.due := rfl
@[simp] theorem openFrame_schedulerBegun (s : State) : (openFrame s).schedulerBegun = s.schedulerBegun := rfl
@[simp] theorem openFrame_choices (s : State) : (openFrame s).choices = s.choices := rfl
@[simp] theorem openFrame_pending (s : State) : (openFrame s).pending = s.pending := rfl

@[simp] theorem beginReply_phase (r : Reply) (p q : Bool) (s : State) : (beginReply r p q s).phase = s.phase := rfl
@[simp] theorem beginReply_station (r : Reply) (p q : Bool) (s : State) : (beginReply r p q s).station = s.station := rfl
@[simp] theorem beginReply_link (r : Reply) (p q : Bool) (s : State) : (beginReply r p q s).link = s.link := rfl
@[simp] theorem beginReply_map (r : Reply) (p q : Bool) (s : State) : (beginReply r p q s).map = s.map := rfl
@[simp] theorem beginReply_tx (r : Reply) (p q : Bool) (s : State) : (beginReply r p q s).tx = s.tx := rfl
@[simp] theorem beginReply_rx (r : Reply) (p q : Bool) (s : State) : (beginReply r p q s).rx = s.rx := rfl
@[simp] theorem beginReply_events (r : Reply) (p q : Bool) (s : State) : (beginReply r p q s).events = s.events := rfl
@[simp] theorem beginReply_counters (r : Reply) (p q : Bool) (s : State) : (beginReply r p q s).counters = s.counters := rfl
@[simp] theorem beginReply_due (r : Reply) (p q : Bool) (s : State) : (beginReply r p q s).due = s.due := rfl
@[simp] theorem beginReply_schedulerBegun (r : Reply) (p q : Bool) (s : State) : (beginReply r p q s).schedulerBegun = s.schedulerBegun := rfl
@[simp] theorem beginReply_choices (r : Reply) (p q : Bool) (s : State) : (beginReply r p q s).choices = s.choices := rfl
@[simp] theorem beginReply_pending (r : Reply) (p q : Bool) (s : State) : (beginReply r p q s).pending = s.pending := rfl

@[simp] theorem frameError_phase (s : State) : (frameError s).phase = s.phase := rfl
@[simp] theorem frameError_station (s : State) : (frameError s).station = s.station := rfl
@[simp] theorem frameError_link (s : State) : (frameError s).link = s.link := rfl
@[simp] theorem frameError_map (s : State) : (frameError s).map = s.map := rfl
@[simp] theorem frameError_tx (s : State) : (frameError s).tx = s.tx := rfl
@[simp] theorem frameError_rx (s : State) : (frameError s).rx = s.rx := rfl
@[simp] theorem frameError_events (s : State) : (frameError s).events = s.events := rfl
@[simp] theorem frameError_due (s : State) : (frameError s).due = s.due := rfl
@[simp] theorem frameError_schedulerBegun (s : State) : (frameError s).schedulerBegun = s.schedulerBegun := rfl
@[simp] theorem frameError_choices (s : State) : (frameError s).choices = s.choices := rfl
@[simp] theorem frameError_pending (s : State) : (frameError s).pending = s.pending := rfl

end Sys2Proof.Machine
end

