-- ==== Sys2Proof/Laws/Frames.lean ====
section
/-! SUPPORT. What the shared operations that branch leave as it was: one frame lemma for each, naming the blocks it does not touch. -/
namespace Sys2Proof.Machine

/-- Placing one result for each of a list of records touches nothing but the event queue. -/
theorem foldl_pushEvent_frame (rs : List Record) (s : State) :
    let t := rs.foldl (fun t r => pushEvent (r.result .flushed) t) s
    t.phase = s.phase ∧ t.station = s.station ∧ t.link = s.link ∧ t.map = s.map ∧ t.tx = s.tx ∧ t.rx = s.rx ∧ t.host = s.host
      ∧ t.counters = s.counters ∧ t.due = s.due
      ∧ t.schedulerBegun = s.schedulerBegun ∧ t.choices = s.choices ∧ t.pending = s.pending := by
  induction rs generalizing s with
  | nil => simp
  | cons r rs ih => exact ih (pushEvent (r.result .flushed) s)

@[simp] theorem offerEvent_frame (k : EventKind) (s : State) :
    (offerEvent k s).phase = s.phase ∧ (offerEvent k s).station = s.station ∧ (offerEvent k s).link = s.link
      ∧ (offerEvent k s).map = s.map ∧ (offerEvent k s).tx = s.tx ∧ (offerEvent k s).rx = s.rx ∧ (offerEvent k s).host = s.host
      ∧ (offerEvent k s).due = s.due
      ∧ (offerEvent k s).schedulerBegun = s.schedulerBegun ∧ (offerEvent k s).choices = s.choices ∧ (offerEvent k s).pending = s.pending := by
  unfold offerEvent
  dsimp only
  (repeat' split) <;> simp

@[simp] theorem endPass_frame (r : Record) (s : State) :
    (endPass r s).phase = s.phase ∧ (endPass r s).station = s.station ∧ (endPass r s).link = s.link ∧ (endPass r s).map = s.map
      ∧ (endPass r s).rx = s.rx ∧ (endPass r s).host = s.host ∧ (endPass r s).counters = s.counters ∧ (endPass r s).due = s.due
      ∧ (endPass r s).schedulerBegun = s.schedulerBegun
      ∧ (endPass r s).choices = s.choices ∧ (endPass r s).pending = s.pending := by
  unfold endPass
  dsimp only
  (repeat' split) <;> simp

@[simp] theorem endCell_frame (s : State) :
    (endCell s).phase = s.phase ∧ (endCell s).station = s.station ∧ (endCell s).link = s.link ∧ (endCell s).map = s.map
      ∧ (endCell s).rx = s.rx ∧ (endCell s).host = s.host ∧ (endCell s).counters = s.counters ∧ (endCell s).due = s.due
      ∧ (endCell s).schedulerBegun = s.schedulerBegun
      ∧ (endCell s).choices = s.choices ∧ (endCell s).pending = s.pending := by
  unfold endCell
  dsimp only
  (repeat' split) <;> simp

@[simp] theorem applyNotice_frame (n : Node) (k : Nibble) (s : State) :
    (applyNotice n k s).phase = s.phase ∧ (applyNotice n k s).station = s.station ∧ (applyNotice n k s).link = s.link
      ∧ (applyNotice n k s).map = s.map ∧ (applyNotice n k s).rx = s.rx ∧ (applyNotice n k s).host = s.host
      ∧ (applyNotice n k s).due = s.due
      ∧ (applyNotice n k s).schedulerBegun = s.schedulerBegun ∧ (applyNotice n k s).choices = s.choices ∧ (applyNotice n k s).pending = s.pending := by
  unfold applyNotice
  dsimp only
  (repeat' split) <;> simp

@[simp] theorem expireRecord_frame (t : Ticket) (s : State) :
    (expireRecord t s).phase = s.phase ∧ (expireRecord t s).station = s.station ∧ (expireRecord t s).link = s.link
      ∧ (expireRecord t s).map = s.map ∧ (expireRecord t s).rx = s.rx ∧ (expireRecord t s).host = s.host
      ∧ (expireRecord t s).counters = s.counters ∧ (expireRecord t s).due = s.due
      ∧ (expireRecord t s).schedulerBegun = s.schedulerBegun ∧ (expireRecord t s).choices = s.choices
      ∧ (expireRecord t s).pending = s.pending := by
  unfold expireRecord
  (repeat' split) <;> simp

@[simp] theorem judgeTimer_frame (t : Ticket) (s : State) :
    (judgeTimer t s).phase = s.phase ∧ (judgeTimer t s).station = s.station ∧ (judgeTimer t s).link = s.link
      ∧ (judgeTimer t s).map = s.map ∧ (judgeTimer t s).rx = s.rx ∧ (judgeTimer t s).host = s.host
      ∧ (judgeTimer t s).counters = s.counters ∧ (judgeTimer t s).due = s.due
      ∧ (judgeTimer t s).schedulerBegun = s.schedulerBegun ∧ (judgeTimer t s).choices = s.choices
      ∧ (judgeTimer t s).pending = s.pending := by
  unfold judgeTimer
  dsimp only
  (repeat' split) <;> simp

@[simp] theorem cutFirstPass_frame (r : Record) (s : State) :
    (cutFirstPass r s).phase = s.phase ∧ (cutFirstPass r s).station = s.station ∧ (cutFirstPass r s).link = s.link
      ∧ (cutFirstPass r s).map = s.map ∧ (cutFirstPass r s).rx = s.rx ∧ (cutFirstPass r s).host = s.host
      ∧ (cutFirstPass r s).counters = s.counters ∧ (cutFirstPass r s).due = s.due
      ∧ (cutFirstPass r s).schedulerBegun = s.schedulerBegun ∧ (cutFirstPass r s).choices = s.choices
      ∧ (cutFirstPass r s).pending = s.pending := by
  unfold cutFirstPass
  dsimp only
  (repeat' split) <;> simp

@[simp] theorem cutRetransmission_frame (r : Record) (s : State) :
    (cutRetransmission r s).phase = s.phase ∧ (cutRetransmission r s).station = s.station
      ∧ (cutRetransmission r s).link = s.link ∧ (cutRetransmission r s).map = s.map ∧ (cutRetransmission r s).rx = s.rx
      ∧ (cutRetransmission r s).host = s.host ∧ (cutRetransmission r s).counters = s.counters
      ∧ (cutRetransmission r s).due = s.due
      ∧ (cutRetransmission r s).schedulerBegun = s.schedulerBegun ∧ (cutRetransmission r s).choices = s.choices
      ∧ (cutRetransmission r s).pending = s.pending := by
  unfold cutRetransmission
  dsimp only
  (repeat' split) <;> simp

@[simp] theorem cutPass_frame (s : State) :
    (cutPass s).phase = s.phase ∧ (cutPass s).station = s.station ∧ (cutPass s).link = s.link ∧ (cutPass s).map = s.map
      ∧ (cutPass s).rx = s.rx ∧ (cutPass s).host = s.host ∧ (cutPass s).counters = s.counters ∧ (cutPass s).due = s.due
      ∧ (cutPass s).schedulerBegun = s.schedulerBegun
      ∧ (cutPass s).choices = s.choices ∧ (cutPass s).pending = s.pending := by
  unfold cutPass
  (repeat' split) <;> simp

@[simp] theorem discardContext_frame (n : Node) (l : Bool) (s : State) :
    (discardContext n l s).phase = s.phase ∧ (discardContext n l s).station = s.station ∧ (discardContext n l s).link = s.link
      ∧ (discardContext n l s).map = s.map ∧ (discardContext n l s).tx = s.tx ∧ (discardContext n l s).events = s.events
      ∧ (discardContext n l s).host = s.host ∧ (discardContext n l s).counters = s.counters
      ∧ (discardContext n l s).due = s.due
      ∧ (discardContext n l s).schedulerBegun = s.schedulerBegun ∧ (discardContext n l s).choices = s.choices
      ∧ (discardContext n l s).pending = s.pending := by
  unfold discardContext
  (repeat' split) <;> simp

@[simp] theorem completeMessage_frame (n : Node) (a : Assembly) (s : State) :
    (completeMessage n a s).phase = s.phase ∧ (completeMessage n a s).station = s.station
      ∧ (completeMessage n a s).link = s.link ∧ (completeMessage n a s).map = s.map ∧ (completeMessage n a s).tx = s.tx
      ∧ (completeMessage n a s).events = s.events ∧ (completeMessage n a s).host = s.host
      ∧ (completeMessage n a s).counters = s.counters ∧ (completeMessage n a s).due = s.due
      ∧ (completeMessage n a s).schedulerBegun = s.schedulerBegun
      ∧ (completeMessage n a s).choices = s.choices ∧ (completeMessage n a s).pending = s.pending := by
  unfold completeMessage
  dsimp only
  (repeat' split) <;> simp

@[simp] theorem newMessage_frame (n : Node) (c : Cell) (s : State) :
    (newMessage n c s).phase = s.phase ∧ (newMessage n c s).station = s.station ∧ (newMessage n c s).link = s.link
      ∧ (newMessage n c s).map = s.map ∧ (newMessage n c s).tx = s.tx ∧ (newMessage n c s).events = s.events
      ∧ (newMessage n c s).host = s.host ∧ (newMessage n c s).due = s.due
      ∧ (newMessage n c s).schedulerBegun = s.schedulerBegun ∧ (newMessage n c s).choices = s.choices
      ∧ (newMessage n c s).pending = s.pending := by
  unfold newMessage
  dsimp only
  (repeat' split) <;> simp

@[simp] theorem firstCell_frame (n : Node) (c : Cell) (s : State) :
    (firstCell n c s).phase = s.phase ∧ (firstCell n c s).station = s.station ∧ (firstCell n c s).link = s.link
      ∧ (firstCell n c s).map = s.map ∧ (firstCell n c s).tx = s.tx ∧ (firstCell n c s).events = s.events
      ∧ (firstCell n c s).host = s.host ∧ (firstCell n c s).due = s.due
      ∧ (firstCell n c s).schedulerBegun = s.schedulerBegun ∧ (firstCell n c s).choices = s.choices
      ∧ (firstCell n c s).pending = s.pending := by
  unfold firstCell
  dsimp only
  (repeat' split) <;> simp

@[simp] theorem laterCell_frame (n : Node) (c : Cell) (s : State) :
    (laterCell n c s).phase = s.phase ∧ (laterCell n c s).station = s.station ∧ (laterCell n c s).link = s.link
      ∧ (laterCell n c s).map = s.map ∧ (laterCell n c s).tx = s.tx ∧ (laterCell n c s).events = s.events
      ∧ (laterCell n c s).host = s.host ∧ (laterCell n c s).due = s.due
      ∧ (laterCell n c s).schedulerBegun = s.schedulerBegun ∧ (laterCell n c s).choices = s.choices
      ∧ (laterCell n c s).pending = s.pending := by
  unfold laterCell
  dsimp only
  (repeat' split) <;> simp

@[simp] theorem dataStep_frame (n : Node) (c : Cell) (s : State) :
    (dataStep n c s).phase = s.phase ∧ (dataStep n c s).station = s.station ∧ (dataStep n c s).link = s.link
      ∧ (dataStep n c s).map = s.map ∧ (dataStep n c s).tx = s.tx ∧ (dataStep n c s).events = s.events
      ∧ (dataStep n c s).host = s.host ∧ (dataStep n c s).due = s.due
      ∧ (dataStep n c s).schedulerBegun = s.schedulerBegun ∧ (dataStep n c s).choices = s.choices
      ∧ (dataStep n c s).pending = s.pending := by
  unfold dataStep
  (repeat' split) <;> simp

@[simp] theorem timeOutContext_frame (n : Node) (s : State) :
    (timeOutContext n s).phase = s.phase ∧ (timeOutContext n s).station = s.station ∧ (timeOutContext n s).link = s.link
      ∧ (timeOutContext n s).map = s.map ∧ (timeOutContext n s).tx = s.tx ∧ (timeOutContext n s).events = s.events
      ∧ (timeOutContext n s).host = s.host ∧ (timeOutContext n s).due = s.due
      ∧ (timeOutContext n s).schedulerBegun = s.schedulerBegun ∧ (timeOutContext n s).choices = s.choices
      ∧ (timeOutContext n s).pending = s.pending := by
  unfold timeOutContext
  dsimp only
  (repeat' split) <;> simp

@[simp] theorem epochStep_frame (n : Node) (e : Byte) (s : State) :
    (epochStep n e s).phase = s.phase ∧ (epochStep n e s).station = s.station ∧ (epochStep n e s).link = s.link
      ∧ (epochStep n e s).map = s.map ∧ (epochStep n e s).tx = s.tx ∧ (epochStep n e s).host = s.host
      ∧ (epochStep n e s).due = s.due
      ∧ (epochStep n e s).schedulerBegun = s.schedulerBegun ∧ (epochStep n e s).choices = s.choices ∧ (epochStep n e s).pending = s.pending := by
  unfold epochStep
  dsimp only
  (repeat' split) <;> simp

@[simp] theorem closeMapWork_frame (s : State) :
    (closeMapWork s).phase = s.phase ∧ (closeMapWork s).station = s.station ∧ (closeMapWork s).link = s.link
      ∧ (closeMapWork s).tx = s.tx ∧ (closeMapWork s).rx = s.rx ∧ (closeMapWork s).events = s.events
      ∧ (closeMapWork s).host = s.host ∧ (closeMapWork s).counters = s.counters ∧ (closeMapWork s).due = s.due
      ∧ (closeMapWork s).schedulerBegun = s.schedulerBegun
      ∧ (closeMapWork s).choices = s.choices ∧ (closeMapWork s).pending = s.pending := by
  unfold closeMapWork
  dsimp only
  (repeat' split) <;> simp

/-- With no switch outstanding nothing is dropped. -/
theorem dropSwitch_of_not_mem {s : State} (h : Work.mapSwitch ∉ s.due) : dropSwitch s = s := by simp [dropSwitch, h]

/-- An outstanding switch is dropped, and the rest of the Map Unit's boundary work is done. -/
theorem dropSwitch_of_mem {s : State} (h : Work.mapSwitch ∈ s.due) :
    dropSwitch s = closeMapWork { s with due := s.due.erase .mapSwitch } := by simp [dropSwitch, h]

@[simp] theorem dropSwitch_due (s : State) : (dropSwitch s).due = s.due.erase .mapSwitch := by
  unfold dropSwitch
  split <;> simp [*, List.erase_of_not_mem]

@[simp] theorem dropSwitch_frame (s : State) :
    (dropSwitch s).phase = s.phase ∧ (dropSwitch s).station = s.station ∧ (dropSwitch s).link = s.link
      ∧ (dropSwitch s).schedulerBegun = s.schedulerBegun ∧ (dropSwitch s).tx = s.tx ∧ (dropSwitch s).rx = s.rx ∧ (dropSwitch s).events = s.events
      ∧ (dropSwitch s).host = s.host ∧ (dropSwitch s).counters = s.counters ∧ (dropSwitch s).choices = s.choices
      ∧ (dropSwitch s).pending = s.pending := by
  unfold dropSwitch
  split <;> simp

@[simp] theorem switchMap_frame (s : State) :
    (switchMap s).phase = s.phase ∧ (switchMap s).station = s.station ∧ (switchMap s).link = s.link ∧ (switchMap s).tx = s.tx
      ∧ (switchMap s).rx = s.rx ∧ (switchMap s).host = s.host ∧ (switchMap s).due = s.due
      ∧ (switchMap s).schedulerBegun = s.schedulerBegun ∧ (switchMap s).choices = s.choices
      ∧ (switchMap s).pending = s.pending := by
  unfold switchMap
  dsimp only
  (repeat' split) <;> simp

@[simp] theorem dropPending_frame (c : ControlContent) (s : State) :
    (dropPending c s).phase = s.phase ∧ (dropPending c s).station = s.station ∧ (dropPending c s).link = s.link
      ∧ (dropPending c s).tx = s.tx ∧ (dropPending c s).rx = s.rx ∧ (dropPending c s).events = s.events
      ∧ (dropPending c s).host = s.host ∧ (dropPending c s).counters = s.counters ∧ (dropPending c s).due = s.due
      ∧ (dropPending c s).schedulerBegun = s.schedulerBegun
      ∧ (dropPending c s).choices = s.choices ∧ (dropPending c s).pending = s.pending := by
  unfold dropPending
  dsimp only
  (repeat' split) <;> simp

@[simp] theorem adoptMap_frame (c : ControlContent) (s : State) :
    (adoptMap c s).phase = s.phase ∧ (adoptMap c s).station = s.station ∧ (adoptMap c s).link = s.link
      ∧ (adoptMap c s).tx = s.tx ∧ (adoptMap c s).rx = s.rx ∧ (adoptMap c s).host = s.host ∧ (adoptMap c s).due = s.due
      ∧ (adoptMap c s).schedulerBegun = s.schedulerBegun
      ∧ (adoptMap c s).choices = s.choices ∧ (adoptMap c s).pending = s.pending := by
  unfold adoptMap
  dsimp only
  (repeat' split) <;> simp

@[simp] theorem followMap_frame (n : Node) (c : ControlContent) (s : State) :
    (followMap n c s).phase = s.phase ∧ (followMap n c s).station = s.station ∧ (followMap n c s).link = s.link
      ∧ (followMap n c s).tx = s.tx ∧ (followMap n c s).rx = s.rx ∧ (followMap n c s).host = s.host
      ∧ (followMap n c s).due = s.due
      ∧ (followMap n c s).schedulerBegun = s.schedulerBegun ∧ (followMap n c s).choices = s.choices ∧ (followMap n c s).pending = s.pending := by
  unfold followMap
  dsimp only
  (repeat' split) <;> simp

@[simp] theorem controlStep_frame (n : Node) (c : Cell) (s : State) :
    (controlStep n c s).phase = s.phase ∧ (controlStep n c s).station = s.station ∧ (controlStep n c s).tx = s.tx
      ∧ (controlStep n c s).host = s.host ∧ (controlStep n c s).due = s.due
      ∧ (controlStep n c s).schedulerBegun = s.schedulerBegun ∧ (controlStep n c s).choices = s.choices
      ∧ (controlStep n c s).pending = s.pending := by
  simp [controlStep]

@[simp] theorem handOff_frame (n : Node) (c : Cell) (s : State) :
    (handOff n c s).phase = s.phase ∧ (handOff n c s).station = s.station ∧ (handOff n c s).host = s.host
      ∧ (handOff n c s).due = s.due
      ∧ (handOff n c s).schedulerBegun = s.schedulerBegun ∧ (handOff n c s).choices = s.choices ∧ (handOff n c s).pending = s.pending := by
  unfold handOff
  dsimp only
  (repeat' split) <;> simp

@[simp] theorem judgeImage_frame (k : Slot) (i : List Byte) (s : State) :
    (judgeImage k i s).phase = s.phase ∧ (judgeImage k i s).station = s.station ∧ (judgeImage k i s).host = s.host
      ∧ (judgeImage k i s).due = s.due
      ∧ (judgeImage k i s).schedulerBegun = s.schedulerBegun ∧ (judgeImage k i s).choices = s.choices ∧ (judgeImage k i s).pending = s.pending := by
  unfold judgeImage
  dsimp only
  (repeat' split) <;> simp

@[simp] theorem decidePermission_frame (s : State) :
    (decidePermission s).phase = s.phase ∧ (decidePermission s).station = s.station ∧ (decidePermission s).map = s.map
      ∧ (decidePermission s).tx = s.tx ∧ (decidePermission s).rx = s.rx ∧ (decidePermission s).events = s.events
      ∧ (decidePermission s).host = s.host ∧ (decidePermission s).due = s.due
      ∧ (decidePermission s).schedulerBegun = s.schedulerBegun ∧ (decidePermission s).choices = s.choices
      ∧ (decidePermission s).pending = s.pending := by
  unfold decidePermission
  dsimp only
  (repeat' split) <;> simp

@[simp] theorem finishSlot_frame (k : Slot) (i : List Byte) (s : State) :
    (finishSlot k i s).phase = s.phase ∧ (finishSlot k i s).station = s.station ∧ (finishSlot k i s).host = s.host
      ∧ (finishSlot k i s).due = s.due
      ∧ (finishSlot k i s).schedulerBegun = s.schedulerBegun ∧ (finishSlot k i s).choices = s.choices ∧ (finishSlot k i s).pending = s.pending := by
  unfold finishSlot
  dsimp only
  (repeat' split) <;> simp

@[simp] theorem flushRecords_frame (s : State) :
    (flushRecords s).phase = s.phase ∧ (flushRecords s).station = s.station ∧ (flushRecords s).link = s.link
      ∧ (flushRecords s).map = s.map ∧ (flushRecords s).rx = s.rx ∧ (flushRecords s).host = s.host
      ∧ (flushRecords s).counters = s.counters ∧ (flushRecords s).due = s.due
      ∧ (flushRecords s).schedulerBegun = s.schedulerBegun ∧ (flushRecords s).choices = s.choices
      ∧ (flushRecords s).pending = s.pending := by
  simp [flushRecords, foldl_pushEvent_frame]

@[simp] theorem clearForDetach_frame (s : State) :
    (clearForDetach s).phase = s.phase ∧ (clearForDetach s).station = s.station ∧ (clearForDetach s).events = s.events
      ∧ (clearForDetach s).host = s.host ∧ (clearForDetach s).counters = s.counters ∧ (clearForDetach s).due = s.due
      ∧ (clearForDetach s).schedulerBegun = s.schedulerBegun
      ∧ (clearForDetach s).choices = s.choices ∧ (clearForDetach s).pending = s.pending := by
  simp [clearForDetach]

@[simp] theorem completeDetach_frame (s : State) :
    (completeDetach s).phase = s.phase ∧ (completeDetach s).host = s.host ∧ (completeDetach s).choices = s.choices
      ∧ (completeDetach s).pending = s.pending := by
  simp [completeDetach]

@[simp] theorem announceBoundary_frame (b : Bool) (s : State) :
    (announceBoundary b s).phase = s.phase ∧ (announceBoundary b s).station = s.station ∧ (announceBoundary b s).link = s.link
      ∧ (announceBoundary b s).events = s.events ∧ (announceBoundary b s).host = s.host
      ∧ (announceBoundary b s).counters = s.counters ∧ (announceBoundary b s).choices = s.choices
      ∧ (announceBoundary b s).pending = s.pending := by
  unfold announceBoundary
  dsimp only
  (repeat' split) <;> simp

@[simp] theorem doWork_frame (w : Work) (s : State) :
    (doWork w s).phase = s.phase ∧ (doWork w s).host = s.host ∧ (doWork w s).choices = s.choices
      ∧ (doWork w s).pending = s.pending := by
  cases w <;> simp [doWork]

@[simp] theorem takeWork_frame (w : Work) (s : State) :
    (takeWork w s).phase = s.phase ∧ (takeWork w s).host = s.host ∧ (takeWork w s).choices = s.choices
      ∧ (takeWork w s).pending = s.pending := by
  simp [takeWork]

@[simp] theorem sendNextCell_frame (k : Slot) (r : Record) (p : Pass) (s : State) :
    (sendNextCell k r p s).phase = s.phase ∧ (sendNextCell k r p s).station = s.station ∧ (sendNextCell k r p s).link = s.link
      ∧ (sendNextCell k r p s).map = s.map ∧ (sendNextCell k r p s).events = s.events ∧ (sendNextCell k r p s).host = s.host
      ∧ (sendNextCell k r p s).counters = s.counters ∧ (sendNextCell k r p s).due = s.due
      ∧ (sendNextCell k r p s).schedulerBegun = s.schedulerBegun
      ∧ (sendNextCell k r p s).choices = s.choices ∧ (sendNextCell k r p s).pending = s.pending := by
  unfold sendNextCell
  dsimp only
  (repeat' split) <;> simp

@[simp] theorem startFirstPass_frame (k : Slot) (r : Record) (s : State) :
    (startFirstPass k r s).phase = s.phase ∧ (startFirstPass k r s).station = s.station ∧ (startFirstPass k r s).link = s.link
      ∧ (startFirstPass k r s).map = s.map ∧ (startFirstPass k r s).events = s.events ∧ (startFirstPass k r s).host = s.host
      ∧ (startFirstPass k r s).counters = s.counters ∧ (startFirstPass k r s).due = s.due
      ∧ (startFirstPass k r s).schedulerBegun = s.schedulerBegun
      ∧ (startFirstPass k r s).choices = s.choices ∧ (startFirstPass k r s).pending = s.pending := by
  unfold startFirstPass
  dsimp only
  (repeat' split) <;> simp

@[simp] theorem startRetransmission_frame (k : Slot) (r : Record) (s : State) :
    (startRetransmission k r s).phase = s.phase ∧ (startRetransmission k r s).station = s.station
      ∧ (startRetransmission k r s).link = s.link ∧ (startRetransmission k r s).map = s.map
      ∧ (startRetransmission k r s).events = s.events ∧ (startRetransmission k r s).host = s.host
      ∧ (startRetransmission k r s).due = s.due
      ∧ (startRetransmission k r s).schedulerBegun = s.schedulerBegun ∧ (startRetransmission k r s).choices = s.choices
      ∧ (startRetransmission k r s).pending = s.pending := by
  simp [startRetransmission]

@[simp] theorem chooseNew_frame (k : Slot) (s : State) :
    (chooseNew k s).phase = s.phase ∧ (chooseNew k s).station = s.station ∧ (chooseNew k s).link = s.link
      ∧ (chooseNew k s).map = s.map ∧ (chooseNew k s).events = s.events ∧ (chooseNew k s).host = s.host
      ∧ (chooseNew k s).due = s.due
      ∧ (chooseNew k s).schedulerBegun = s.schedulerBegun ∧ (chooseNew k s).choices = s.choices ∧ (chooseNew k s).pending = s.pending := by
  unfold chooseNew
  (repeat' split) <;> simp

@[simp] theorem chooseCell_frame (k : Slot) (s : State) :
    (chooseCell k s).phase = s.phase ∧ (chooseCell k s).station = s.station ∧ (chooseCell k s).link = s.link
      ∧ (chooseCell k s).map = s.map ∧ (chooseCell k s).events = s.events ∧ (chooseCell k s).host = s.host
      ∧ (chooseCell k s).due = s.due
      ∧ (chooseCell k s).schedulerBegun = s.schedulerBegun ∧ (chooseCell k s).choices = s.choices ∧ (chooseCell k s).pending = s.pending := by
  unfold chooseCell
  (repeat' split) <;> simp

@[simp] theorem transmitInSlot_frame (k : Slot) (s : State) :
    (transmitInSlot k s).phase = s.phase ∧ (transmitInSlot k s).station = s.station ∧ (transmitInSlot k s).link = s.link
      ∧ (transmitInSlot k s).map = s.map ∧ (transmitInSlot k s).events = s.events ∧ (transmitInSlot k s).host = s.host
      ∧ (transmitInSlot k s).due = s.due
      ∧ (transmitInSlot k s).schedulerBegun = s.schedulerBegun ∧ (transmitInSlot k s).choices = s.choices ∧ (transmitInSlot k s).pending = s.pending := by
  unfold transmitInSlot
  (repeat' split) <;> simp

@[simp] theorem openSlot_frame (k : Slot) (s : State) :
    (openSlot k s).phase = s.phase ∧ (openSlot k s).station = s.station ∧ (openSlot k s).map = s.map
      ∧ (openSlot k s).host = s.host ∧ (openSlot k s).due = s.due
      ∧ (openSlot k s).schedulerBegun = s.schedulerBegun ∧ (openSlot k s).choices = s.choices
      ∧ (openSlot k s).pending = s.pending := by
  unfold openSlot
  dsimp only
  (repeat' split) <;> simp

@[simp] theorem startSlot_frame (k : Slot) (s : State) :
    (startSlot k s).phase = s.phase ∧ (startSlot k s).station = s.station ∧ (startSlot k s).map = s.map
      ∧ (startSlot k s).host = s.host ∧ (startSlot k s).due = s.due
      ∧ (startSlot k s).schedulerBegun = s.schedulerBegun ∧ (startSlot k s).choices = s.choices
      ∧ (startSlot k s).pending = s.pending := by
  unfold startSlot
  dsimp only
  (repeat' split) <;> simp

@[simp] theorem countBoundary_frame (l : LockState) (m : Nat) (s : State) :
    (countBoundary l m s).phase = s.phase ∧ (countBoundary l m s).station = s.station ∧ (countBoundary l m s).events = s.events
      ∧ (countBoundary l m s).host = s.host ∧ (countBoundary l m s).counters = s.counters
      ∧ (countBoundary l m s).choices = s.choices ∧ (countBoundary l m s).pending = s.pending := by
  simp [countBoundary]

@[simp] theorem enterLocked_frame (s : State) :
    (enterLocked s).phase = s.phase ∧ (enterLocked s).station = s.station ∧ (enterLocked s).host = s.host
      ∧ (enterLocked s).choices = s.choices ∧ (enterLocked s).pending = s.pending := by
  simp [enterLocked]

@[simp] theorem reportLoss_frame (c : LossCause) (s : State) :
    (reportLoss c s).phase = s.phase ∧ (reportLoss c s).station = s.station ∧ (reportLoss c s).link = s.link
      ∧ (reportLoss c s).map = s.map ∧ (reportLoss c s).rx = s.rx ∧ (reportLoss c s).host = s.host
      ∧ (reportLoss c s).due = s.due
      ∧ (reportLoss c s).schedulerBegun = s.schedulerBegun ∧ (reportLoss c s).pending = s.pending := by
  unfold reportLoss
  dsimp only
  (repeat' split) <;> simp

@[simp] theorem passTime_frame (n : Nat) (s : State) :
    (passTime n s).phase = s.phase ∧ (passTime n s).station = s.station ∧ (passTime n s).map = s.map ∧ (passTime n s).rx = s.rx
      ∧ (passTime n s).host = s.host ∧ (passTime n s).due = s.due
      ∧ (passTime n s).schedulerBegun = s.schedulerBegun ∧ (passTime n s).choices = s.choices
      ∧ (passTime n s).pending = s.pending := by
  unfold passTime
  dsimp only
  (repeat' split) <;> simp

@[simp] theorem masterBoundary_frame (s : State) :
    (masterBoundary s).phase = s.phase ∧ (masterBoundary s).station = s.station ∧ (masterBoundary s).host = s.host
      ∧ (masterBoundary s).counters = s.counters ∧ (masterBoundary s).choices = s.choices
      ∧ (masterBoundary s).pending = s.pending := by
  unfold masterBoundary
  dsimp only
  (repeat' split) <;> simp

@[simp] theorem applyConfig_frame (c : Configuration) (s : State) :
    (applyConfig c s).phase = s.phase ∧ (applyConfig c s).link = s.link ∧ (applyConfig c s).events = s.events
      ∧ (applyConfig c s).host = s.host ∧ (applyConfig c s).counters = s.counters ∧ (applyConfig c s).due = s.due
      ∧ (applyConfig c s).schedulerBegun = s.schedulerBegun
      ∧ (applyConfig c s).choices = s.choices ∧ (applyConfig c s).pending = s.pending := by
  unfold applyConfig forgetNumbers
  dsimp only
  (repeat' split) <;> simp

/-- Doing what is left of a boundary's work leaves the phase, the host line and the queue of commands as they were. -/
theorem settleUpTo_frame (ready : State → List Work) (fuel : Nat) (s : State) :
    (settleUpTo ready fuel s).phase = s.phase ∧ (settleUpTo ready fuel s).host = s.host
      ∧ (settleUpTo ready fuel s).pending = s.pending := by
  induction fuel generalizing s with
  | zero => simp [settleUpTo]
  | succ fuel ih =>
    unfold settleUpTo
    (repeat' split) <;> simp [ih]

@[simp] theorem settle_frame (s : State) :
    (settle s).phase = s.phase ∧ (settle s).host = s.host ∧ (settle s).pending = s.pending := settleUpTo_frame _ _ s

@[simp] theorem beforeWork_frame (w : Work) (s : State) :
    (beforeWork w s).phase = s.phase ∧ (beforeWork w s).host = s.host ∧ (beforeWork w s).pending = s.pending := by
  unfold beforeWork
  split
  · exact settleUpTo_frame _ _ s
  · simp

@[simp] theorem commandWork_frame (w : Work) (s : State) :
    (commandWork w s).phase = s.phase ∧ (commandWork w s).host = s.host ∧ (commandWork w s).pending = s.pending := by
  unfold commandWork
  split <;> simp

end Sys2Proof.Machine
end

