-- ==== Sys2Proof/Laws/Vocabulary.lean ====
section
/-! SUPPORT. The terms of the statements beside the operations of the model: where the two say the same thing, one lemma says so. -/
namespace Sys2Proof.Claims

open Sys2Proof.Machine

theorem bump_eq_up (c : Half) : bump c = up c := by
  unfold bump up
  split
  · next h => subst h; decide
  · next h =>
    apply BitVec.eq_of_toNat_eq
    have : c.toNat ≠ 65535 := fun e => h (BitVec.eq_of_toNat_eq (by simpa using e))
    have := c.isLt
    simp [BitVec.toNat_add, BitVec.toNat_ofNat]
    omega

theorem bumpByte_eq_upByte (c : Byte) : bumpByte c = upByte c := by
  unfold bumpByte upByte
  split
  · next h => subst h; decide
  · next h =>
    apply BitVec.eq_of_toNat_eq
    have : c.toNat ≠ 255 := fun e => h (BitVec.eq_of_toNat_eq (by simpa using e))
    have := c.isLt
    simp [BitVec.toNat_add, BitVec.toNat_ofNat]
    omega

theorem blocksFor_eq_blocks (n : Nat) : blocksFor n = blocks n := by
  unfold blocksFor blocks
  split <;> omega

theorem cellCount_eq_cells (n : Nat) : cellCount n = cells n := by
  unfold cellCount cells
  rw [blocksFor_eq_blocks]

theorem nextTicketAfter_eq_after (t : Ticket) : nextTicketAfter t = after t := by
  unfold nextTicketAfter after
  have := t.isLt
  by_cases h : t = 0xFFFF
  · subst h; decide
  · have hn : t.toNat ≠ 65535 := fun e => h (BitVec.eq_of_toNat_eq (by simpa using e))
    simp only [h, hn, if_false]
    apply BitVec.eq_of_toNat_eq
    simp [BitVec.toNat_add]

theorem pushEvent_eq_placed (k : EventKind) (s : State) : pushEvent k s = placed k s := rfl

theorem offerEvent_eq_offered (k : EventKind) (s : State) : offerEvent k s = offered k s := by
  unfold offerEvent offered
  rw [bump_eq_up, bumpByte_eq_upByte]
  rfl

theorem acked_eq_ackedSet (r : Record) : r.acked = ackedSet r := rfl

theorem finishRecord_eq_ended (r : Record) (o : ResultOutcome) (s : State) : finishRecord r o s = ended r o s := by
  simp only [finishRecord, ended, Record.blocks, blocksFor_eq_blocks]
  rfl

theorem putRecord_eq_replaced (r : Record) (s : State) : putRecord r s = replaced r s := by
  simp [putRecord, replaced]

theorem oweAck_eq_owing (n : Node) (k : Nibble) (s : State) :
    oweAck n k s = owing n k ((s.rx.peers.get n).epoch.getD 0) s := rfl

theorem context_blocks_eq_held (c : Context) : c.blocks = held c := by
  cases c <;> simp [Context.blocks, held, blocksFor_eq_blocks]

theorem setContext_eq_withContext (n : Node) (c : Context) (s : State) : setContext n c s = withContext n c s := rfl

theorem abandonContext_eq_abandoned (n : Node) (s : State) : abandonContext n s = abandoned n s := by
  simp only [abandonContext, abandoned, context_blocks_eq_held]
  rfl

theorem countBreak_eq (s : State) : countBreak s = { s with counters.breaks := up s.counters.breaks } := by
  rw [countBreak, bump_eq_up]

theorem tick_eq_ticked (r : Record) : r.tick = ticked r := by
  obtain ⟨t, c, a, d, p, g, b, life, n, k, state, q, w, x⟩ := r
  cases state
  · by_cases h : 2 ≤ life.toNat
    · have : ¬(life = 0#16 ∨ life = 1#16) := by bv_omega
      simp [Record.tick, ticked, Record.lifetimeEnds, h, this]
    · have : life = 0#16 ∨ life = 1#16 := by bv_omega
      simp [Record.tick, ticked, Record.lifetimeEnds, h, this]
  · simp [Record.tick, ticked]
  · by_cases h : 2 ≤ w
    · have : ¬w ≤ 1 := by omega
      simp [Record.tick, ticked, Record.timerEnds, h, this]
    · have : w ≤ 1 := by omega
      simp [Record.tick, ticked, Record.timerEnds, h, this]
  · simp [Record.tick, ticked]

theorem context_tick_eq_aged (c : Context) : c.tick = aged c := by cases c <;> rfl

theorem timedOut_iff_gone16 (c : Context) : c.timedOut = true ↔ gone16 c := by
  cases c
  · simp [Context.timedOut, gone16]
  · exact decide_eq_true_iff
  · exact decide_eq_true_iff

theorem setFrameGeneration_eq (s : State) :
    setFrameGeneration s = { s with map.frameGeneration := generationOf s } := rfl

theorem beginCount_eq_counting (s : State) : beginCount s = counting s := rfl

theorem takeReference_eq_referenced (s : State) : takeReference s = referenced s := rfl

theorem enterSearch_eq_searching (s : State) : enterSearch s = searching s := rfl

theorem lengthSuits_iff (k : RequestKind) (L : Nat) : lengthSuits k L = true ↔ lengthFits k L := by
  cases k <;> simp [lengthSuits, lengthFits]
  constructor
  · intro h; exact ⟨L / 2, by omega⟩
  · rintro ⟨n, rfl⟩; omega

theorem stateCheck_eq_turnedAway (k : RequestKind) (s : State) :
    stateCheck k s = turnedAway k s.station.state s.station.config.role := by
  unfold stateCheck turnedAway
  rcases s.station.state <;> rcases s.station.config.role <;> cases k <;> decide

theorem meets_iff_share (a b : NodeSet) : meets a b = true ↔ share a b := by
  unfold meets share
  rw [bne_iff_ne, ne_eq, BitVec.eq_of_getLsbD_eq_iff]
  simp only [BitVec.getLsbD_and, not_forall]
  constructor
  · rintro ⟨i, hi, h⟩
    exact ⟨⟨i, hi⟩, by simpa using h⟩
  · rintro ⟨n, h⟩
    exact ⟨n.val, n.isLt, by simpa using h⟩

/-- A 16-bit field's bytes as numbers. -/
theorem halfBytes_eq (h : Half) : halfBytes h = [BitVec.ofNat 8 (h.toNat / 256), BitVec.ofNat 8 (h.toNat % 256)] := by
  have := h.isLt
  simp only [halfBytes, List.cons.injEq, and_true]
  constructor <;> apply BitVec.eq_of_toNat_eq <;> simp [hiByte, loByte, Nat.shiftRight_eq_div_pow]

/-- The seventeen codes are told apart, and each is found as its own kind. -/
theorem requestKind?_code (k : RequestKind) : requestKind? k.code = some k := by cases k <;> decide

theorem requestKind?_unknown {code : Byte} (h : ∀ k : RequestKind, k.code ≠ code) : requestKind? code = none := by
  rw [requestKind?, List.find?_eq_none]
  intro k _
  simpa using h k

end Sys2Proof.Claims
end

