-- ==== Sys2Proof/Laws/Boundary.lean ====
section
/-! SUPPORT. Doing the work of a boundary: what is left, what a single item does, and that an item is done once. -/
namespace Sys2Proof.Machine

/-! ## One item -/

/-- No operation of a block adds boundary work; a completion drops what is left. -/
theorem doWork_due (w : Work) (s : State) : (doWork w s).due = s.due ∨ (w = .completion ∧ (doWork w s).due = []) := by
  cases w <;> simp [doWork, completeDetach]

theorem takeWork_due_length (w : Work) (s : State) (h : w ∈ s.due) : (takeWork w s).due.length < s.due.length := by
  have hlt : (s.due.erase w).length < s.due.length := by
    have := List.length_erase_of_mem h
    have := List.length_pos_of_mem h
    omega
  unfold takeWork
  rcases doWork_due w { s with due := s.due.erase w, schedulerBegun := s.schedulerBegun || beginsScheduler w s } with e | ⟨-, e⟩
  · rw [e]; exact hlt
  · rw [e]; exact List.length_pos_of_mem h

/-- An item of another kind than the completion is taken off the list, and the rest of the list stays. -/
theorem takeWork_due {w : Work} (h : w ≠ .completion) (s : State) : (takeWork w s).due = s.due.erase w := by
  unfold takeWork
  rcases doWork_due w { s with due := s.due.erase w, schedulerBegun := s.schedulerBegun || beginsScheduler w s } with e | ⟨e, -⟩
  · exact e
  · exact absurd e h

/-! ## What is ready -/

theorem mem_due_of_mem_workReady {w : Work} {s : State} (h : w ∈ workReady s) : w ∈ s.due := by
  unfold workReady at h
  split at h
  · exact List.mem_of_mem_filter h
  · exact h

theorem mem_due_of_mem_schedulerLeft {w : Work} {s : State} (h : w ∈ schedulerLeft s) : w ∈ s.due := List.mem_of_mem_filter h

/-- While anything is outstanding, something is ready. -/
theorem workReady_eq_nil {s : State} : workReady s = [] ↔ s.due = [] := by
  refine ⟨fun h => ?_, fun h => List.eq_nil_iff_forall_not_mem.2 fun w hw => by simpa [h] using mem_due_of_mem_workReady hw⟩
  unfold workReady at h
  split at h
  · next hb =>
    obtain ⟨w, hw⟩ := List.exists_mem_of_ne_nil (schedulerLeft s) (by rintro e; simp [e] at hb)
    have hne : (w != Work.completion) = true := by
      have := (List.mem_filter.1 hw).2
      cases w <;> simp_all [Work.ofScheduler]
    have : w ∈ s.due.filter (· != .completion) := List.mem_filter.2 ⟨mem_due_of_mem_schedulerLeft hw, hne⟩
    simp [h] at this
  · exact h

/-- The completion is ready unless the Transmit Scheduler has begun and not finished (R163). -/
theorem completion_mem_workReady {s : State} (h : Work.completion ∈ workReady s) :
    s.schedulerBegun = false ∨ schedulerLeft s = [] := by
  unfold workReady at h
  split at h
  · simp at h
  · next hb => cases hs : s.schedulerBegun <;> simp_all

/-- The item drawn is one of those that are ready. -/
theorem drawWork_mem (w : Work) (rest : List Work) (s : State) : drawWork w rest s ∈ w :: rest := by
  unfold drawWork
  split
  · simp
  · rw [List.getD_eq_getElem?_getD, List.getElem?_eq_getElem (by simpa using Nat.mod_lt _ (Nat.succ_pos rest.length))]
    exact List.getElem_mem _

/-! ## Doing what is left -/

theorem settleUpTo_of_nil {ready : State → List Work} {s : State} (h : ready s = []) (fuel : Nat) :
    settleUpTo ready fuel s = s := by
  cases fuel <;> simp [settleUpTo, h]

@[simp] theorem settle_of_due_nil {s : State} (h : s.due = []) : settle s = s := settleUpTo_of_nil (workReady_eq_nil.2 h) _

/-- With fuel for every item, none that is ready is left. -/
theorem settleUpTo_ready (ready : State → List Work) (hr : ∀ s w, w ∈ ready s → w ∈ s.due) (fuel : Nat) (s : State)
    (h : s.due.length ≤ fuel) : ready (settleUpTo ready fuel s) = [] := by
  have none {t : State} (ht : t.due.length = 0) : ready t = [] :=
    List.eq_nil_iff_forall_not_mem.2 fun w hw => by simpa [List.length_eq_zero_iff.1 ht] using hr t w hw
  induction fuel generalizing s with
  | zero => exact none (by simpa [settleUpTo] using h)
  | succ fuel ih =>
    unfold settleUpTo
    split
    · assumption
    · next w rest e =>
      have hw : ∀ v ∈ w :: rest, v ∈ s.due := fun v hv => hr s v (e ▸ hv)
      split
      · have := takeWork_due_length w s (hw w (by simp))
        exact none (by omega)
      · apply ih
        have := takeWork_due_length _ { s with choices := s.choices + 1 } (hw _ (drawWork_mem w rest s))
        simp only at this
        omega

@[simp] theorem settle_due (s : State) : (settle s).due = [] :=
  workReady_eq_nil.1 (settleUpTo_ready workReady (fun _ _ => mem_due_of_mem_workReady) _ s (Nat.le_refl _))

/-- After it nothing of the Transmit Scheduler's work is outstanding. -/
theorem finishScheduler_left (s : State) : schedulerLeft (finishScheduler s) = [] :=
  settleUpTo_ready schedulerLeft (fun _ _ => mem_due_of_mem_schedulerLeft) _ s (Nat.le_refl _)

theorem settle_settle (s : State) : settle (settle s) = settle s := settle_of_due_nil (settle_due s)

theorem beforeWork_of_ne {w : Work} (h : w ≠ .completion) (s : State) : beforeWork w s = s := by simp [beforeWork, h]

/-- Nothing comes before a completion that is ready. -/
theorem beforeWork_of_ready {w : Work} {s : State} (h : w = .completion → s.schedulerBegun = false ∨ schedulerLeft s = []) :
    beforeWork w s = s := by
  unfold beforeWork
  split
  · next hb =>
    rcases h hb.1 with e | e
    · simp [e] at hb
    · exact settleUpTo_of_nil e _
  · rfl

/-- A single item left over is done as its own command does it. -/
theorem settle_of_due_single {w : Work} {s : State} (h : s.due = [w]) : settle s = commandWork w s := by
  have hb : beforeWork w s = s := beforeWork_of_ready fun e => .inr (by simp [schedulerLeft, h, e, Work.ofScheduler])
  have hr : workReady s = [w] := by
    unfold workReady
    split
    · next hl => cases w <;> simp_all [schedulerLeft, Work.ofScheduler]
    · exact h
  simp [settle, commandWork, h, settleUpTo, hr, hb]

/-- A command that names an item which is not outstanding has no effect. -/
theorem commandWork_of_not_mem {w : Work} {s : State} (h : w ∉ s.due) : commandWork w s = s := by simp [commandWork, h]

/-- Either the item was outstanding and is done after what comes before it, or nothing changes. -/
theorem commandWork_cases (w : Work) (s : State) :
    (w ∈ s.due ∧ commandWork w s = takeWork w (beforeWork w s)) ∨ (w ∉ s.due ∧ commandWork w s = s) := by
  by_cases h : w ∈ s.due
  · exact .inl ⟨h, by simp [commandWork, h]⟩
  · exact .inr ⟨h, commandWork_of_not_mem h⟩

/-! ## Announcing a boundary -/

open Sys2Proof.Claims

theorem mem_allNodes (n : Node) : n ∈ allNodes := by revert n; decide

theorem switchesNow_iff (s : State) : switchesNow s = true ↔ ∃ p, s.map.pendingMap = some p ∧ p.effective = s.link.frame := by
  unfold switchesNow
  rcases s.map.pendingMap with _ | p <;> simp

theorem announceBoundary_due (s : State) :
    (announceBoundary true s).due = schedulerWork s ++ receiverWork s ++ (if switchesNow s then [Work.mapSwitch] else [])
      ++ (if s.station.state = .detaching then [Work.completion] else []) := by
  unfold announceBoundary
  dsimp only
  cases switchesNow s <;> simp

theorem mem_announced_due (w : Work) (s : State) :
    w ∈ (announceBoundary true s).due ↔ w ∈ schedulerWork s ∨ w ∈ receiverWork s
      ∨ (w = .mapSwitch ∧ switchesNow s = true) ∨ (w = .completion ∧ s.station.state = .detaching) := by
  rw [announceBoundary_due]
  by_cases hs : switchesNow s = true <;> by_cases hd : s.station.state = .detaching <;> simp [hs, hd]

theorem announceBoundary_tx (s : State) : (announceBoundary true s).tx = { s.tx with records := s.tx.records.map ticked } := by
  unfold announceBoundary
  dsimp only
  cases switchesNow s <;> simp [funext tick_eq_ticked]

theorem announceBoundary_rx (s : State) :
    (announceBoundary true s).rx = { s.rx with contexts := Vector.ofFn fun n => aged (s.rx.contexts.get n) } := by
  unfold announceBoundary
  dsimp only
  cases switchesNow s <;> simp [context_tick_eq_aged]

theorem announceBoundary_map (s : State) :
    (announceBoundary true s).map
      = if switchesNow s then s.map
        else { s.map with
          frameGeneration := generationOf s
          content := (announceBoundary true s).map.content } := by
  unfold announceBoundary
  dsimp only
  rcases switchesNow s <;> simp [closeMapWork, setFrameGeneration]
  split <;> simp [generationOf, activeGeneration]

/-- Everything that announcing a boundary does (R15): what counts, what is left as work, and what the Map Unit sets. -/
theorem announceBoundary_announces (s : State) : announces s (announceBoundary true s) := by
  have hms : Work.mapSwitch ∈ (announceBoundary true s).due ↔ switchesNow s = true := by
    simp [mem_announced_due, schedulerWork, receiverWork]
  refine ⟨⟨announceBoundary_tx s, ?_, ?_, ?_, ?_, ?_, ?_, ?_, by simp⟩, ?_, ?_, ?_⟩
  · intro n; simp [announceBoundary_rx]
  · rw [announceBoundary_rx]
  · intro k; simp [mem_announced_due, schedulerWork, receiverWork, Record.lifetimeEnds]; aesop
  · intro k; simp [mem_announced_due, schedulerWork, receiverWork, Record.timerEnds]; aesop
  · intro n
    simp [mem_announced_due, schedulerWork, receiverWork, mem_allNodes, announceBoundary_rx, ← timedOut_iff_gone16,
      context_tick_eq_aged]
  · simp [mem_announced_due, schedulerWork, receiverWork]
  · unfold announceBoundary
    dsimp only
    cases switchesNow s <;> simp
  · rw [hms, switchesNow_iff]
  · by_cases h : switchesNow s = true
    · simp only [hms, h, if_true]
      rw [announceBoundary_map, if_pos h]
    · rw [if_neg (mt hms.1 h)]
      conv_lhs => rw [announceBoundary_map, if_neg h]
  · intro hr
    unfold announceBoundary
    dsimp only
    cases switchesNow s <;> simp [closeMapWork, setFrameGeneration, hr]

end Sys2Proof.Machine
end

