-- ==== Sys2Proof/Laws/Cells.lean ====
section
/-! SUPPORT. The checks on a received cell as the rules state them, and what the steps of the hand-off can do. -/
namespace Sys2Proof.Machine

open Sys2Proof.Claims

theorem nodeOf?_eq_some {k : Nat} {n : Node} : nodeOf? k = some n ↔ k = n.val := by
  unfold nodeOf?
  split
  · rw [Option.some.injEq, Fin.ext_iff]
  · have := n.isLt
    constructor
    · rintro ⟨⟩
    · omega

theorem nodeOf?_isSome {k : Nat} : (nodeOf? k).isSome = true ↔ k < 12 := by
  unfold nodeOf?
  split <;> simp_all

theorem ownerAt_eq_some {owners : SlotOwners} {slot : Slot} {n : Node} :
    ownerAt owners slot = some n ↔ ∃ k : Fin 15, slot.val = k.val + 1 ∧ owners.get k = some n := by
  unfold ownerAt
  have hs := slot.isLt
  by_cases h : slot.val = 0
  · simp [h]
  · have hk : slot.val - 1 < 15 := by omega
    rw [if_neg h, List.getD_eq_getElem?_getD, List.getElem?_eq_getElem (by simpa using hk)]
    simp only [Option.getD_some, Vector.getElem_toList]
    constructor
    · intro e; exact ⟨⟨slot.val - 1, hk⟩, by simp; omega, e⟩
    · rintro ⟨k, hk', e⟩
      have : k.val = slot.val - 1 := by omega
      simpa [Vector.get, this] using e

/-- R27, R28: when the owner check is made. -/
theorem checksOwner_iff (slot : Slot) (s : State) : checksOwner slot s = true ↔ ownerChecked slot s := by
  simp [checksOwner, ownerChecked, and_assoc]

/-- R31: when a cell carries a notice for this part. -/
theorem carriesNotice_iff (c : Cell) (s : State) : carriesNotice c s = true ↔ notice c s := by
  unfold carriesNotice notice
  rcases s.station.config.node with _ | n
  · simp
  · simp [nodeOf?_eq_some, and_assoc]

/-- R44: when a control payload's map content is usable. -/
theorem usableContent_iff (c : ControlContent) : usableContent c = true ↔ ¬unusable c := by
  have hn : ∀ n : Nibble, invalidOwner n.toNat = true ↔ n = 12 ∨ n = 13 ∨ n = 14 := by decide
  have ho : (c.owners.any fun n => invalidOwner n.toNat) = true ↔ ∃ n ∈ c.owners, n = 12 ∨ n = 13 ∨ n = 14 := by
    simp [hn]
  have hf : framesAhead c.effective c.frame = true
      ↔ ¬((c.effective - c.frame).toNat < 1 ∨ 255 < (c.effective - c.frame).toNat) := by
    unfold framesAhead
    rw [Bool.and_eq_true, decide_eq_true_iff, decide_eq_true_iff]
    omega
  rw [← not_iff_not, not_not]
  unfold usableContent unusable
  rw [← ho]
  simp only [Bool.and_eq_true, Bool.or_eq_true, Bool.not_eq_true', decide_eq_true_iff, beq_iff_eq, hf]
  generalize (c.owners.any fun n => invalidOwner n.toNat) = o
  generalize (c.effective - c.frame).toNat = ahead
  generalize c.rate.toNat = rate
  by_cases h1 : c.generation = c.current <;> by_cases h2 : c.generation = c.current + 1#8 <;> cases o <;>
    cases c.carriesPending <;> cases c.pendingExists <;> simp [h1, h2] <;> omega

/-- R104: room for a new message. -/
theorem hasRoom_iff (total : Nat) (s : State) : hasRoom total s = true ↔ roomFor total s := by
  unfold hasRoom roomFor
  rw [Bool.and_eq_true, decide_eq_true_iff, decide_eq_true_iff, blocksFor_eq_blocks]
  rfl

/-- R78: what the epoch step can do. -/
theorem epochStep_cases (n : Node) (e : Byte) (s : State) :
    ((s.rx.peers.get n).epoch = some e ∧ epochStep n e s = s)
      ∨ ((s.rx.peers.get n).epoch ≠ some e ∧
          let forgotten := abandoned n
            { s with
              rx.peers := s.rx.peers.set n.val { epoch := some e, lastAccepted := none }
              rx.owed := s.rx.owed.filter fun o => o.source != n }
          epochStep n e s
            = match (s.rx.peers.get n).epoch with
              | none => forgotten
              | some old => offered (.peerEpoch n old e) forgotten) := by
  unfold epochStep
  by_cases h : (s.rx.peers.get n).epoch = some e
  · exact .inl ⟨h, by simp [h]⟩
  · refine .inr ⟨h, ?_⟩
    rw [if_neg h]
    cases (s.rx.peers.get n).epoch <;>
      simp only [abandonContext_eq_abandoned, offerEvent_eq_offered]

/-- R17, R18: the permission decision is open and is made, or nothing changes. -/
theorem decidePermission_cases (s : State) :
    (s.link.decisionDue = false ∧ decidePermission s = s)
      ∨ (s.link.decisionDue = true
          ∧ decidePermission s
            = { s with
                link.permission := grantsPermission s
                link.decisionDue := false
                counters.silentFrames := if grantsPermission s then s.counters.silentFrames else up s.counters.silentFrames }) := by
  unfold decidePermission
  simp only [bump_eq_up]
  by_cases h : s.link.decisionDue = true
  · refine .inr ⟨h, ?_⟩
    cases hg : grantsPermission s <;> simp [h]
  · exact .inl ⟨by simpa using h, by simp [h]⟩

/-- R44 to R47: following a control cell touches nothing but the maps, the event queue and the count of events lost. -/
theorem followMap_touches (n : Node) (c : ControlContent) (s : State) :
    followMap n c s
      = { s with
          map := (followMap n c s).map
          events := (followMap n c s).events
          counters.eventsLost := (followMap n c s).counters.eventsLost } := by
  unfold followMap dropPending storePending adoptMap offerEvent pushEvent
  dsimp only
  (repeat' split) <;> rfl

/-- What the end of a slot's judgement leaves to the permission decision. -/
theorem decidePermission_eq_decided (slot : Slot) (s : State) :
    (if slot.val = 0 then decidePermission s else s) = decided slot s := by
  have hg : grantsPermission s = decide (s.link.lock = .locked ∧ s.rx.controlRecord.isSome = true
      ∧ s.rx.controlRecord = s.map.frameGeneration) := by
    unfold grantsPermission
    rw [Bool.eq_iff_iff]
    simp [and_assoc]
  unfold decided
  rw [← hg]
  by_cases h0 : slot.val = 0
  · rcases decidePermission_cases s with ⟨h, e⟩ | ⟨h, e⟩
    · simp [h0, h, e]
    · rw [if_pos h0, if_pos ⟨h0, h⟩, e]
  · rw [if_neg h0, if_neg fun h => h0 h.1]

end Sys2Proof.Machine
end

