-- ==== Sys2Proof/Laws/Delivery.lean ====
section
/-! SUPPORT. What each operation on an outbound record can do: one lemma per operation lists its cases. -/
namespace Sys2Proof.Machine

open Sys2Proof.Claims

/-- R69, R86: the four ways a pass ends. -/
theorem endPass_cases (r : Record) (s : State) :
    (r.ackreq = false ∧ endPass r s = ended { r with pass := none } .sent s)
      ∨ (r.ackreq = true ∧ r.pendingSet = 0 ∧ endPass r s = ended { r with pass := none } .delivered s)
      ∨ (r.ackreq = true ∧ r.pendingSet ≠ 0 ∧ r.cancelRequested = true
          ∧ endPass r s = ended { r with pass := none } .cancelled s)
      ∨ (r.ackreq = true ∧ r.pendingSet ≠ 0 ∧ r.cancelRequested = false
          ∧ endPass r s
            = replaced { r with pass := none, state := .awaiting, ackTimer := s.station.config.ackWait } s) := by
  unfold endPass
  dsimp only
  simp only [finishRecord_eq_ended, putRecord_eq_replaced]
  by_cases h1 : r.ackreq = true <;> by_cases h2 : r.pendingSet = 0 <;> by_cases h3 : r.cancelRequested = true <;> simp_all

/-- A cell that ends no pass only stops; one that ends a pass ends it on the state without the cell (R3, R69). -/
theorem endCell_cases (s : State) :
    (s.tx.cell = none ∧ endCell s = s)
      ∨ (∃ c, s.tx.cell = some c ∧ c.endsPassOf = none ∧ endCell s = { s with tx.cell := none })
      ∨ (∃ c t, s.tx.cell = some c ∧ c.endsPassOf = some t ∧ findRecord t s = none ∧ endCell s = { s with tx.cell := none })
      ∨ (∃ c t r, s.tx.cell = some c ∧ c.endsPassOf = some t ∧ findRecord t s = some r
          ∧ endCell s = endPass r { s with tx.cell := none }) := by
  unfold endCell
  rcases hc : s.tx.cell with _ | c
  · exact .inl ⟨rfl, by simp⟩
  · rcases he : c.endsPassOf with _ | t
    · exact .inr (.inl ⟨c, rfl, he, by simp [he]⟩)
    · have hf : findRecord t { s with tx.cell := none } = findRecord t s := rfl
      rcases hr : findRecord t s with _ | r
      · exact .inr (.inr (.inl ⟨c, t, rfl, he, hr, by simp only [he, hf, hr]⟩))
      · exact .inr (.inr (.inr ⟨c, t, r, rfl, he, hr, by simp only [he, hf, hr]⟩))

/-- R83, R85: a notice matches nothing and is counted, ends its record, or takes the node from its pending set. -/
theorem applyNotice_cases (n : Node) (k : Nibble) (s : State) :
    (s.tx.records.find? (Record.matchesNotice n k) = none
        ∧ applyNotice n k s = { s with counters.staleAcks := up s.counters.staleAcks })
      ∨ ∃ r, s.tx.records.find? (Record.matchesNotice n k) = some r ∧
          let opened : State := { s with tx.openSets := s.tx.openSets.set n.val (onlyNumber k) }
          let left : Record := { r with pendingSet := without r.pendingSet (onlyNode n) }
          ((left.pendingSet = 0 ∧ r.state ≠ .sending ∧ applyNotice n k s = ended left .delivered opened)
            ∨ ((left.pendingSet ≠ 0 ∨ r.state = .sending) ∧ applyNotice n k s = replaced left opened)) := by
  unfold applyNotice
  rcases h : s.tx.records.find? (Record.matchesNotice n k) with _ | r
  · exact .inl ⟨rfl, by simp [bump_eq_up]⟩
  · refine .inr ⟨r, rfl, ?_⟩
    dsimp only
    simp only [finishRecord_eq_ended, putRecord_eq_replaced]
    by_cases h1 : without r.pendingSet (onlyNode n) = 0#12 <;> by_cases h2 : r.state = .sending <;> simp [h1, h2]

/-- R71: a lifetime that ran out ends a QUEUED record and touches nothing else. -/
theorem expireRecord_cases (t : Ticket) (s : State) :
    expireRecord t s = s ∨ ∃ r, findRecord t s = some r ∧ r.state = .queued ∧ expireRecord t s = ended r .expired s := by
  unfold expireRecord
  split
  · exact .inl rfl
  · next r hr =>
    split
    · next hq => exact .inr ⟨r, hr, hq, finishRecord_eq_ended ..⟩
    · exact .inl rfl

/-- R87: an ack timer that ran out moves an AWAITING record to RETRY, or ends it FAILED or PARTIAL. -/
theorem judgeTimer_cases (t : Ticket) (s : State) :
    judgeTimer t s = s ∨ ∃ r, findRecord t s = some r ∧ r.state = .awaiting ∧
      ((r.attempts ≤ s.station.config.retryLimit
          ∧ judgeTimer t s = replaced { r with state := .retry, ackTimer := 0 }
              { s with tx.retryOrder := s.tx.retryOrder ++ [t] })
        ∨ (s.station.config.retryLimit < r.attempts
          ∧ judgeTimer t s = ended r (if r.pendingSet = r.dest then .failed else .partly) s)) := by
  unfold judgeTimer
  split
  · exact .inl rfl
  · next r hr =>
    by_cases hw : r.state = .awaiting
    · refine .inr ⟨r, hr, hw, ?_⟩
      by_cases ha : r.attempts ≤ s.station.config.retryLimit
      · exact .inl ⟨ha, by simp [hw, ha, putRecord_eq_replaced, replaced]⟩
      · exact .inr ⟨by omega, by simp [hw, ha, finishRecord_eq_ended]⟩
    · exact .inl (by simp [hw])

/-- R96: a cut first pass ends CANCELLED, or goes back to QUEUED without its number. -/
theorem cutFirstPass_cases (r : Record) (s : State) :
    let closed := match r.number with
      | none => s
      | some n => closeNumber n r.dest s
    let cut : Record := { r with pass := none, attempts := r.attempts - 1 }
    (r.cancelRequested = true ∧ cutFirstPass r s = ended cut .cancelled closed)
      ∨ (r.cancelRequested = false
          ∧ cutFirstPass r s = replaced { cut with state := .queued, number := none, cancelRequested := false } closed) := by
  unfold cutFirstPass
  dsimp only
  simp only [finishRecord_eq_ended, putRecord_eq_replaced]
  rcases r.number <;> by_cases h : r.cancelRequested = true <;> simp [h]

/-- R97: a cut retransmission ends DELIVERED or CANCELLED, or goes to the head of the RETRY order. -/
theorem cutRetransmission_cases (r : Record) (s : State) :
    let cut : Record := { r with pass := none, attempts := r.attempts - 1 }
    (r.pendingSet = 0 ∧ cutRetransmission r s = ended cut .delivered s)
      ∨ (r.pendingSet ≠ 0 ∧ r.cancelRequested = true ∧ cutRetransmission r s = ended cut .cancelled s)
      ∨ (r.pendingSet ≠ 0 ∧ r.cancelRequested = false
          ∧ cutRetransmission r s
            = replaced { cut with state := .retry, ackTimer := 0, cancelRequested := false }
                { s with tx.retryOrder := r.ticket :: s.tx.retryOrder }) := by
  unfold cutRetransmission
  dsimp only
  simp only [finishRecord_eq_ended, putRecord_eq_replaced]
  by_cases h1 : r.pendingSet = 0#12 <;> by_cases h2 : r.cancelRequested = true <;> simp [h1, h2, replaced]

/-- R13: with no record SENDING a lock loss cuts nothing, and else it cuts the pass of that record. -/
theorem cutPass_cases (s : State) :
    (sendingRecord s = none ∧ cutPass s = s)
      ∨ ∃ r, sendingRecord s = some r
          ∧ cutPass s = if r.retransmitting then cutRetransmission r s else cutFirstPass r s := by
  unfold cutPass
  rcases h : sendingRecord s with _ | r
  · exact .inl ⟨rfl, rfl⟩
  · exact .inr ⟨r, rfl, rfl⟩

/-- Whatever order is drawn, a loss is reported and the pass is cut, and only the count of draws tells which came first (R13). -/
theorem reportLoss_cases (cause : LossCause) (s : State) :
    ∃ n, reportLoss cause s = cutPass (offered (.linkDown cause) { s with choices := n })
      ∨ reportLoss cause s = offered (.linkDown cause) (cutPass { s with choices := n }) := by
  unfold reportLoss
  simp only [offerEvent_eq_offered]
  split
  · refine ⟨s.choices + 1, ?_⟩
    split
    · exact .inl rfl
    · exact .inr rfl
  · exact ⟨s.choices, .inl rfl⟩

end Sys2Proof.Machine
end

