-- ==== Sys2Proof/Laws/Requests.lean ====
section
/-! SUPPORT. What characters on HRX and request commands do: the receive states, the three ways a request can arrive, and for one that is
executed now the next state in terms of the answer of its own rule. -/
namespace Sys2Proof.Machine

open Sys2Proof.Claims

/-- A request command is the arrival of its request. -/
theorem exec_of_requestOf {c : Instr} {r : HostRequest} (h : requestOf c = some r) (s : State) :
    exec c s = .next (receiveRequest r s) := by
  cases c <;> simp [requestOf] at h <;> subst h <;> rfl

theorem exec_command (k : RequestKind) (seq : Byte) (params : List Byte) (s : State) :
    exec (command k seq params) s = .next (receiveRequest { kind := k.code, seq := seq, params := params } s) := by
  cases k <;> rfl

theorem receiveRequest_eq_arrive {r : HostRequest} {s : State} (hp : s.phase = .running) (hf : s.host.receive = .inFrame []) :
    receiveRequest r s = arrive r { s with host.receive := .idle } := by
  simp [receiveRequest, completeFrame, hp, hf]

/-! ## Characters -/

/-- A length byte out of its range is found at once. -/
theorem judgeFrame_badLength {l : Byte} (rest : List Byte) (h : l.toNat < 2 ∨ 250 < l.toNat) :
    judgeFrame (l :: rest) = .error .badLength :=
  if_pos h

/-- Short of the second CRC byte the characters of a frame are taken. -/
theorem judgeFrame_collecting {l : Byte} {rest : List Byte} (h2 : 2 ≤ l.toNat) (h250 : l.toNat ≤ 250)
    (h : rest.length < l.toNat + 2) : judgeFrame (l :: rest) = .collecting := by
  have hl : ¬(l.toNat < 2 ∨ Config.longestBody < l.toNat) := by unfold Config.longestBody; omega
  have hc : rest.length + 1 < l.toNat + 3 := by omega
  simp only [judgeFrame, param, List.getD_cons_zero, if_neg hl, List.length_cons, if_pos hc]

/-- With the second CRC byte a frame is in error or a request. -/
theorem judgeFrame_whole {l : Byte} {body : List Byte} (hi lo : Byte) (h2 : 2 ≤ l.toNat) (h250 : l.toNat ≤ 250)
    (h : body.length = l.toNat) :
    judgeFrame (l :: body ++ [hi, lo])
      = if crc16 (l :: body) ≠ hi ++ lo then .error .crcMismatch
        else .complete { kind := body.getD 0 0, seq := body.getD 1 0, params := body.drop 2 } := by
  have hl : ¬(l.toNat < 2 ∨ Config.longestBody < l.toNat) := by unfold Config.longestBody; omega
  rcases body with _ | ⟨k, _ | ⟨q, params⟩⟩
  · simp at h; omega
  · simp at h; omega
  · have hp : params.length + 2 = l.toNat := by simpa using h
    simp only [judgeFrame, param, List.cons_append, List.getD_cons_zero, if_neg hl, List.length_cons, List.length_append,
      List.length_nil]
    rw [if_neg (by omega), ← hp]
    simp [halfOf]

/-- In IDLE there is no frame to be in error. -/
theorem errorInFrame_idle {s : State} (h : s.host.receive = .idle) : errorInFrame s = s := by simp [errorInFrame, h]

/-- In IN_FRAME an error is counted and the frame is gone. -/
theorem errorInFrame_inFrame {taken : List Byte} {s : State} (h : s.host.receive = .inFrame taken) :
    errorInFrame s = inError s := by
  simp [errorInFrame, h, frameError, inError, bump_eq_up]

/-- All that a fault-free character can do: in IDLE a lead byte opens a frame and any other changes nothing; in IN_FRAME it is taken,
ends the frame in error, or completes a request. -/
theorem takeCharacter_cases (s : State) (value : Byte) :
    (s.host.receive = .idle ∧ value = 0xC3 ∧ takeCharacter s value = inFrame [] s)
      ∨ (s.host.receive = .idle ∧ value ≠ 0xC3 ∧ takeCharacter s value = s)
      ∨ ∃ taken, s.host.receive = .inFrame taken ∧
          ((judgeFrame (taken ++ [value]) = .collecting ∧ takeCharacter s value = inFrame (taken ++ [value]) s)
            ∨ (∃ f, judgeFrame (taken ++ [value]) = .error f ∧ takeCharacter s value = inError s)
            ∨ ∃ r, judgeFrame (taken ++ [value]) = .complete r
                ∧ takeCharacter s value = arrive r { s with host.receive := .idle }) := by
  rcases hr : s.host.receive with _ | taken
  · by_cases hv : value = 0xC3
    · exact .inl ⟨rfl, hv, by simp only [takeCharacter, hr, if_pos hv, inFrame]⟩
    · exact .inr (.inl ⟨rfl, hv, by simp only [takeCharacter, hr, if_neg hv]⟩)
  · rcases hj : judgeFrame (taken ++ [value]) with _ | f | r <;>
      simp [takeCharacter, hr, hj, inFrame, inError, frameError, bump_eq_up, completeFrame]

/-- The characters that follow others are taken in the state those leave. -/
theorem takeCharacters_append (a b : List Byte) (s : State) :
    takeCharacters (a ++ b) s = takeCharacters b (takeCharacters a s) := List.foldl_append ..

/-- In IDLE characters without a lead byte among them change nothing. -/
theorem takeCharacters_idle {values : List Byte} {s : State} (h : s.host.receive = .idle) (hv : 0xC3 ∉ values) :
    takeCharacters values s = s := by
  induction values with
  | nil => rfl
  | cons v rest ih =>
    have hv' : v ≠ 0xC3 := fun e => hv (e ▸ List.mem_cons_self ..)
    show takeCharacters rest (takeCharacter s v) = s
    rw [show takeCharacter s v = s by simp only [takeCharacter, h, if_neg hv'], ih fun m => hv (List.mem_cons_of_mem _ m)]

/-- With the waiting place full a request is discarded, behind a reply it waits, and else it is taken up. -/
theorem arrive_cases (r : HostRequest) (s : State) :
    (s.host.waiting.isSome = true
        ∧ arrive r s = { s with host.overrun := true, counters.overruns := up s.counters.overruns })
      ∨ (s.host.waiting = none ∧ s.host.sending.isSome = true ∧ arrive r s = { s with host.waiting := some r })
      ∨ (s.host.waiting = none ∧ s.host.sending = none ∧ arrive r s = takeUp r s) := by
  unfold arrive
  rw [bump_eq_up]
  rcases hw : s.host.waiting with _ | w <;> rcases hs : s.host.sending with _ | x <;> simp

/-- With a reply in transmission a character touches only the host line and its two counters: no request is executed. -/
theorem takeCharacter_during_reply {s : State} (h : s.host.sending.isSome = true) (value : Byte) :
    ∃ host frameErrors overruns,
      takeCharacter s value
          = { s with
              host := host
              counters := { s.counters with frameErrors := frameErrors, overruns := overruns } }
        ∧ host.sending = s.host.sending ∧ host.kept = s.host.kept ∧ host.rate = s.host.rate := by
  rcases takeCharacter_cases s value with ⟨-, -, e⟩ | ⟨-, -, e⟩ | ⟨taken, -, ⟨-, e⟩ | ⟨f, -, e⟩ | ⟨r, -, e⟩⟩
  · exact ⟨_, _, _, e, rfl, rfl, rfl⟩
  · exact ⟨s.host, s.counters.frameErrors, s.counters.overruns, e, rfl, rfl, rfl⟩
  · exact ⟨_, _, _, e, rfl, rfl, rfl⟩
  · exact ⟨_, _, s.counters.overruns, e, rfl, rfl, rfl⟩
  · rw [e]
    rcases arrive_cases r { s with host.receive := .idle } with ⟨-, e⟩ | ⟨-, -, e⟩ | ⟨-, hs, -⟩
    · exact ⟨_, s.counters.frameErrors, _, e, rfl, rfl, rfl⟩
    · exact ⟨_, s.counters.frameErrors, s.counters.overruns, e, rfl, rfl, rfl⟩
    · simp [show s.host.sending = none from hs] at h

/-- What an opened frame, a frame error and an arriving request each keep is kept by any characters. -/
theorem takeCharacters_keeps {P : State → Prop} (opened : ∀ taken s, P s → P (inFrame taken s))
    (error : ∀ s, P s → P (inError s)) (complete : ∀ r s, P s → P (arrive r { s with host.receive := .idle }))
    (values : List Byte) (s : State) (h : P s) : P (takeCharacters values s) := by
  induction values generalizing s with
  | nil => exact h
  | cons v rest ih =>
    refine ih _ ?_
    rcases takeCharacter_cases s v with ⟨-, -, e⟩ | ⟨-, -, e⟩ | ⟨taken, -, ⟨-, e⟩ | ⟨f, -, e⟩ | ⟨r, -, e⟩⟩
    · rw [e]; exact opened _ _ h
    · rw [e]; exact h
    · rw [e]; exact opened _ _ h
    · rw [e]; exact error _ h
    · rw [e]; exact complete _ _ h

/-! ## Requests executed now -/

theorem takeUp_executes {r : HostRequest} {s : State} (h : s.host.kept.all (fun k => k.seq != r.seq) = true) :
    takeUp r s = executeRequest r s := by
  unfold takeUp
  split
  · rfl
  · next k hk =>
    have : k.seq ≠ r.seq := by simpa [hk] using h
    simp [this]

/-- A request that is executed now: its answer is kept and its transmission begins. -/
theorem exec_of_executesNow {c : Instr} {r : HostRequest} {s : State} (h : requestOf c = some r) (hn : executesNow r.seq s) :
    exec c s = .next (executeRequest r { s with host.receive := .idle }) := by
  obtain ⟨hp, hf, hs, hw, hk⟩ := hn
  rw [exec_of_requestOf h, receiveRequest_eq_arrive hp hf]
  rcases arrive_cases r { s with host.receive := .idle } with ⟨hw', -⟩ | ⟨-, hs', -⟩ | ⟨-, -, e⟩
  · simp [hw] at hw'
  · simp [hs] at hs'
  · rw [e, takeUp_executes (by simpa using hk)]

/-- A request of a known kind that is executed now and passes the general checks: the block that owns its effect answers it. -/
theorem exec_taken {k : RequestKind} {seq : Byte} {params : List Byte} {s : State} (hn : executesNow seq s)
    (hl : lengthFits k (params.length + 2)) (ht : turnedAway k s.station.state s.station.config.role = none) :
    exec (command k seq params) s = .next (
      let a := performRequest k params { s with host.receive := .idle }
      let reply : Reply := { kind := k.code + 0x80, seq := seq, status := a.1, data := a.2.1 }
      beginReply reply false (k.code == RequestKind.reset.code && a.1 == .ok) { a.2.2 with host.kept := some reply }) := by
  have hr : requestOf (command k seq params) = some { kind := k.code, seq := seq, params := params } := by cases k <;> rfl
  rw [exec_of_executesNow hr hn]
  have e : judgeRequest { kind := k.code, seq := seq, params := params } { s with host.receive := .idle }
      = performRequest k params { s with host.receive := .idle } := by
    simp [judgeRequest, requestKind?_code, (lengthSuits_iff _ _).2 hl, stateCheck_eq_turnedAway, ht]
  simp [executeRequest, e, replyTo]

end Sys2Proof.Machine
end

