-- ==== Sys2Proof/Laws/Transmit.lean ====
section
/-! SUPPORT. What is sent in a slot: when the part drives it, which record is chosen, and which number it draws. -/
namespace Sys2Proof.Machine

open Sys2Proof.Claims

/-- R17, R61, R70: the part drives slot 0 as a master, and the slots 1 to 15 that the active map gives it. -/
theorem drivesSlot_iff (slot : Slot) (s : State) :
    drivesSlot slot s = true ↔ (slot.val ≠ 0 ∧ mayDrive slot s) ∨ (slot.val = 0 ∧ mayDriveControl s) := by
  unfold drivesSlot mayDrive mayDriveControl ownedBy slotOwner
  by_cases h0 : slot.val = 0
  · simp [h0, and_assoc]
  · rcases hm : s.map.active with _ | m <;> rcases hn : s.station.config.node with _ | n <;>
      simp [h0, ownerAt_eq_some, and_assoc]

/-- R60: eligibility, judged on the older records. -/
theorem eligible_iff_mayStart (older : List Record) (m : Record) (s : State)
    (hopen : openUnion m.dest s ≠ BitVec.allOnes 16
      ↔ ∃ k : Fin 16, ∀ n : Node, m.dest.getLsbD n.val = true → (s.tx.openSets.get n).getLsbD k.val = false) :
    eligible older m s = true ↔ mayStart older m s := by
  unfold eligible mayStart
  rw [← hopen]
  have hs : ∀ o : Record, (meets o.dest m.dest = true) = share o.dest m.dest := fun o => propext (meets_iff_share _ _)
  simp only [Bool.and_eq_true, beq_iff_eq, Bool.not_eq_true', List.any_eq_false, Bool.or_eq_true, not_and,
    Record.inFlight, bne_iff_ne, ne_eq, and_assoc, hs]
  refine and_congr_right fun _ => and_congr_right fun _ => and_congr ?_ ?_
  · cases m.ackreq <;> simp [begun, or_assoc]
  · cases m.ackreq <;> simp

/-- The numbers open at some node of a set are those in the union of their sets. -/
theorem openUnion_getLsbD (dest : NodeSet) (s : State) (k : Nat) :
    (openUnion dest s).getLsbD k = true
      ↔ ∃ n : Node, dest.getLsbD n.val = true ∧ (s.tx.openSets.get n).getLsbD k = true := by
  have key : ∀ (l : List Node) (u : NumberSet),
      (l.foldl (fun u n => if hasNode dest n then u ||| openSet n s else u) u).getLsbD k = true
        ↔ u.getLsbD k = true ∨ ∃ n ∈ l, dest.getLsbD n.val = true ∧ (s.tx.openSets.get n).getLsbD k = true := by
    intro l
    induction l with
    | nil => simp
    | cons n l ih =>
      intro u
      rw [List.foldl_cons, ih]
      rcases h : dest.getLsbD n.val with _ | _
      · simp only [hasNode, h, Bool.false_eq_true, if_false, List.mem_cons, exists_eq_or_imp, false_and, false_or]
      · simp only [hasNode, openSet, h, if_true, BitVec.getLsbD_or, Bool.or_eq_true, List.mem_cons, exists_eq_or_imp, true_and,
          or_assoc]
  have hall : ∀ n : Node, n ∈ allNodes := by decide
  unfold openUnion
  rw [key]
  simp [hall]

/-- R60 (c): some number is free exactly when the union leaves one out. -/
theorem openUnion_ne_allOnes (dest : NodeSet) (s : State) :
    openUnion dest s ≠ BitVec.allOnes 16
      ↔ ∃ k : Fin 16, ∀ n : Node, dest.getLsbD n.val = true → (s.tx.openSets.get n).getLsbD k.val = false := by
  constructor
  · intro h
    by_contra hc
    apply h
    apply BitVec.eq_of_getLsbD_eq
    intro i hi
    have := not_exists.1 hc ⟨i, hi⟩
    simp only [not_forall] at this
    obtain ⟨n, h1, h2⟩ := this
    rw [(openUnion_getLsbD dest s i).2 ⟨n, h1, by simpa using h2⟩, BitVec.getLsbD_allOnes]
    simp only [hi, decide_true]
  · rintro ⟨k, hk⟩ e
    have : (openUnion dest s).getLsbD k.val = true := by
      rw [e, BitVec.getLsbD_allOnes]; exact decide_eq_true k.isLt
    obtain ⟨n, h1, h2⟩ := (openUnion_getLsbD dest s k.val).1 this
    rw [hk n h1] at h2
    exact absurd h2 (by simp)

/-- R60 as the statements have it. -/
theorem eligible_iff (older : List Record) (m : Record) (s : State) : eligible older m s = true ↔ mayStart older m s :=
  eligible_iff_mayStart older m s (openUnion_ne_allOnes m.dest s)

/-- R65: the number drawn is the first from the candidate on that is not closed, as long as one is found within the steps. -/
theorem drawNumber_spec (closed : NumberSet) (fuel : Nat) (c : Nibble)
    (h : ∃ j < fuel, closed.getLsbD (c + BitVec.ofNat 4 j).toNat = false) :
    ∃ j < fuel, drawNumber closed fuel c = c + BitVec.ofNat 4 j
      ∧ closed.getLsbD (c + BitVec.ofNat 4 j).toNat = false
      ∧ ∀ i < j, closed.getLsbD (c + BitVec.ofNat 4 i).toNat = true := by
  induction fuel generalizing c with
  | zero => obtain ⟨j, hj, -⟩ := h; omega
  | succ fuel ih =>
    unfold drawNumber
    have h0 : c + BitVec.ofNat 4 0 = c := by simp
    have hstep : ∀ j, c + 1 + BitVec.ofNat 4 j = c + BitVec.ofNat 4 (j + 1) := by
      intro j
      rw [BitVec.add_assoc]
      congr 1
      apply BitVec.eq_of_toNat_eq
      simp [BitVec.toNat_add, Nat.add_comm]
    by_cases hc : closed.getLsbD c.toNat = true
    · have : ∃ j < fuel, closed.getLsbD (c + 1 + BitVec.ofNat 4 j).toNat = false := by
        obtain ⟨j, hj, hf⟩ := h
        cases j with
        | zero => rw [h0, hc] at hf; exact absurd hf (by simp)
        | succ j => exact ⟨j, by omega, by rw [hstep]; exact hf⟩
      obtain ⟨j, hj, e, hf, hall⟩ := ih (c + 1) this
      refine ⟨j + 1, by omega, ?_, by rw [← hstep]; exact hf, ?_⟩
      · rw [if_pos hc, e, hstep]
      · intro i hi
        cases i with
        | zero => rw [h0]; exact hc
        | succ i => rw [← hstep]; exact hall i (by omega)
    · exact ⟨0, by omega, by simp [hc], by rw [h0]; simpa using hc, by omega⟩

end Sys2Proof.Machine
end

