-- ==== Sys2Proof/WellFormed.lean ====
section
/-! DEFINITION. Which terms of `Instr` are commands the environment of the part can give.  The meanings are total: nothing
rests on this check but the reading of a term as an event of the manual. -/
namespace Sys2Proof

/-- A request body is at most 250 bytes, two of them the kind and the sequence (R129). -/
def paramsFit (params : List Byte) : Bool := params.length + 2 ≤ Config.longestBody

/-- The characters after a lead byte make a frame of the length its length byte gives (R129). -/
def frameFits (frame : List Byte) : Bool :=
  match frame with
  | [] => false
  | l :: rest => 2 ≤ l.toNat && l.toNat ≤ Config.longestBody && rest.length == l.toNat + 2

/-- The command is the event that its row names: REQUEST_RECEIVED a frame, and LEAD_BYTE a lead byte, though their meanings take any
characters (log entries 6 and 7). -/
def WellFormed : Instr → Bool
  | .ident _ ps | .status _ ps | .configure _ ps | .attach _ ps | .detach _ ps | .mapStage _ ps | .mapCommit _ ps
  | .mapWithdraw _ ps | .mapRead _ ps | .send _ ps | .cancel _ ps | .queryTicket _ ps | .fetchMessage _ ps
  | .fetchEvent _ ps | .counters _ ps | .peerRead _ ps | .reset _ ps => paramsFit ps
  | .unknownKindRequest kind _ ps => paramsFit ps && !(RequestKind.all.any fun k => k.code == kind)
  | .requestReceived frame => frameFits frame
  | .markObserved count => count != 0
  | .cellReceived image => image.length == Config.cellBytes
  | .lifetimeExpiry ticket => ticket != 0
  | .ackTimerExpiry ticket => ticket != 0
  | .leadByte value fault => value == 0xC3 && !fault
  | .replyTransmissionEnd | .hostFrameError _ | .gapTimeout | .resetTakesEffect | .pinResetAssert | .pinResetRelease _
  | .startupIntervalEnd | .masterFrameBoundary | .missedMark | .clockLoss | .slotStart _ | .passEnd
  | .reassemblyTimeout _ | .mapSwitch | .detachCompletion => true

end Sys2Proof
end

