-- ==== Sys2Proof/Tests/Slice0.lean ====
section
/-! SUPPORT. Tests: the well-formedness smoke, one-step tests of each command with results from the manual's worked sequences and
tables, and for every statement with hypotheses a witness that meets them all. -/
namespace Sys2Proof.Tests

open Sys2Proof.Machine Sys2Proof.Claims Sys2Proof.Safety

set_option Elab.async false

/-! ## States and readings used below -/

/-- The next state of a step. -/
def result : Host.Outcome State Fault Refusal → State
  | .next t => t
  | .fault _ => State.reset
  | .refused _ => State.reset

/-- Status and data of the kept reply. -/
def answer (s : State) : Option (Status × List Byte) := s.host.kept.map fun k => (k.status, k.data)

/-- After the start-up interval. -/
def listening : State := { State.reset with phase := .running }

/-- After the start-up interval and a lead byte on HRX. -/
def running : State := { listening with host := { listening.host with receive := .inFrame [] } }

/-- The owners that give some slots to nodes and the others to none. -/
def owning (slots : List (Nat × Node)) : SlotOwners :=
  Vector.ofFn fun k => (slots.find? fun p => p.1 == k.val + 1).map fun p => p.2

/-- The map of generation 6 over some owners. -/
def map6 (slots : List (Nat × Node)) : SlotMap := { owners := owning slots, generation := 6 }

/-- A configured, detached station at W 4 and retry limit 3. -/
def detachedStation (role : Role) (node : Node) (epoch : Byte) : State :=
  { running with station := { state := .detached, config := ⟨role, some node, epoch, 2, 4, 3⟩ } }

/-- A detached master at node 0 holding the map of generation 6. -/
def restingMaster : State :=
  { detachedStation .master 0 1 with
    map :=
      { running.map with
        active := some (map6 [(4, 3)]), frameGeneration := some 6, masterNode := some 0, masterRate := some 2 } }

/-- A member that is LOCKED with permission in frame 700, slot 0 judged, holding the map of generation 6. -/
def lockedMember (node : Node) (epoch : Byte) (slots : List (Nat × Node)) : State :=
  { running with
    station := { state := .attached, config := ⟨.member, some node, epoch, 2, 4, 3⟩ }
    link :=
      { lock := .locked, frame := 700, position := some 240, missed := 0, controlFlag := true, permission := true
        decisionDue := false, nextSlot := 1 }
    map :=
      { running.map with
        active := some (map6 slots), frameGeneration := some 6, masterNode := some 0, masterRate := some 2 }
    rx := { running.rx with controlRecord := some 6 } }

/-- A master at node 0 that drives frame 1000. -/
def drivingMaster (slots : List (Nat × Node)) : State :=
  { running with
    station := { state := .attached, config := ⟨.master, some 0, 1, 2, 4, 3⟩ }
    link :=
      { lock := .driving, frame := 1000, position := some 0, missed := 0, controlFlag := false, permission := true
        decisionDue := false, nextSlot := 0 }
    map :=
      { running.map with
        active := some (map6 slots), frameGeneration := some 6, masterNode := some 0, masterRate := some 2
        content := some (List.replicate 16 0) } }

/-- A member at node 4 in a lock state. -/
def inLock (lock : LockState) (missed : Nat) (flag : Bool) : State :=
  { lockedMember 4 9 [(5, 4)] with
    link :=
      { lock := lock, frame := 813, position := some 0, missed := missed, controlFlag := flag, permission := false
        decisionDue := false, nextSlot := 0 } }

/-- A state with reception of a slot in progress. -/
def receiving (slot : Slot) (s : State) : State := { s with rx := { s.rx with receiving := some slot } }

/-- A state with boundary work left. -/
def owingWork (due : List Work) (s : State) : State := { s with due := due }

/-- A state with outbound records, their places held and their blocks taken. -/
def holding (records : List Record) (s : State) : State :=
  { s with
    tx :=
      { s.tx with
        records := records
        retryOrder := (records.filter fun r => r.state == .retry).map fun r => r.ticket
        freeBlocks := 64 - (records.map Record.blocks).sum
        nextTicket := 100 }
    events := { s.events with heldCount := records.length } }

/-- The bytes 0, 1, 2, … of a message. -/
def message (length : Nat) : List Byte := (List.range length).map fun i => BitVec.ofNat 8 i

/-- A QUEUED record. -/
def posted (ticket : Ticket) (cls : MsgClass) (ackreq : Bool) (dest : NodeSet) (length : Nat) : Record :=
  { ticket := ticket, cls := cls, ackreq := ackreq, dest := dest, pendingSet := if ackreq then dest else 0, tag := 0x21
    payload := message length, lifetime := 0, number := none, attempts := 0, state := .queued, cancelRequested := false
    ackTimer := 0, pass := none }

/-- A record that awaits acknowledgements of number 7 from the nodes of a set. -/
def awaiting (ticket : Ticket) (dest pendingSet : NodeSet) (attempts timer : Nat) : Record :=
  { posted ticket .routine true dest 16 with
    pendingSet := pendingSet, number := some 7, attempts := attempts, state := .awaiting, ackTimer := timer }

/-- A record in RETRY. -/
def retrying (ticket : Ticket) (dest pendingSet : NodeSet) : Record :=
  { awaiting ticket dest pendingSet 1 0 with state := .retry }

/-- A record SENDING a pass to its pending set, acknowledged under number 7. -/
def sending (kind : PassKind) (cancel : Bool) (next : Nat) : Record :=
  { posted 60 .routine true 0x024 40 with
    state := .sending, attempts := 1, number := some 7, cancelRequested := cancel
    pass := some { kind := kind, set := 0x024, nextIndex := next } }

/-- A cell of a station with no acknowledgement. -/
def fillerOf (node : Node) (epoch : Byte) : Cell := filler node epoch

/-- A FILLER image that acknowledges message `number` to a node and epoch. -/
def acknowledging (node : Node) (epoch : Byte) (target number : Nibble) (targetEpoch : Byte) : List Byte :=
  encodeCell
    { filler node epoch with ackValid := true, ackTarget := target, ackNumber := number, ackEpoch := targetEpoch }

/-- A DATA cell from node 2, epoch 40, to node 7. -/
def dataCell (first last ackreq : Bool) (index : BitVec 3) (number : Nibble) (total : Byte) : List Byte :=
  encodeCell
    { filler 2 40 with
      kind := 2, first := first, last := last, ackreq := ackreq, index := index, number := number, total := total
      dest := 0x0080, tag := 5, count := 16, payload := message 16 }

/-- A CONTROL cell image from node 0, epoch 1. -/
def controlCell (c : ControlContent) : List Byte :=
  encodeCell { filler 0 1 with kind := 3, total := 16, count := 16, payload := encodeContent c }

/-- Control content for frame 813 that carries a current map with slot 5 given to node 4. -/
def content813 (generation : Byte) : ControlContent :=
  { frame := 813, current := generation, carriesPending := false, pendingExists := false, effective := 0
    generation := generation, owners := (List.replicate 15 (15 : Nibble)).set 4 4, rate := 2 }

/-- Control content for frame 813 that carries a pending map of generation 7 for frame 818. -/
def pending813 : ControlContent :=
  { content813 6 with carriesPending := true, pendingExists := true, effective := 818, generation := 7 }

/-- The peer table after node 2 at epoch 40, node 5 at epoch 9 and node 0 at epoch 1 were heard. -/
def knowing (s : State) : State :=
  { s with
    rx :=
      { s.rx with
        peers := Vector.ofFn fun n =>
          if n = 2 then { epoch := some 40, lastAccepted := some 3 }
          else if n = 5 then { epoch := some 9, lastAccepted := none }
          else if n = 0 then { epoch := some 1, lastAccepted := none }
          else { epoch := none, lastAccepted := none } } }

/-- Node 7 receiving slot 1, which node 2 owns; slot 4 is node 5's. -/
def node7 (slot : Slot) : State := receiving slot (knowing (lockedMember 7 17 [(1, 2), (4, 5), (5, 7)]))

/-- Node 7 with a context for node 2. -/
def node7With (c : Context) : State := withContext 2 c (node7 1)

/-- A context of node 2 that has the first of two cells of an unacknowledged message of 20 bytes. -/
def assembly20 : Assembly :=
  { nextIndex := 1, total := 20, bytes := message 16, tag := 5, ackreq := false, number := 0, frames := 0 }

/-- A host line state with a reply in transmission, a lead byte received, and perhaps a request waiting. -/
def replying (resets : Bool) (waiting : Option HostRequest) (s : State) : State :=
  let reply : Reply := { kind := 0x82, seq := 21, status := .ok, data := [] }
  { s with
    host :=
      { receive := .inFrame [], kept := some reply, waiting := waiting, overrun := false, rate := 1
        sending := some { reply := reply, replay := false, overrun := false, resets := resets } } }

/-! ## Well-formedness -/

theorem test_params_too_long : WellFormed (.send 1 (List.replicate 249 0)) = false := by decide +kernel
theorem test_known_kind_is_not_unknown : WellFormed (.unknownKindRequest 0x7F 1 []) = false := by decide +kernel
theorem test_short_frame : WellFormed (.requestReceived [2, 1, 1, 0]) = false := by decide +kernel
theorem test_frame_without_length : WellFormed (.requestReceived []) = false := by decide +kernel
theorem test_frame_length_byte : WellFormed (.requestReceived [1, 1, 0, 0]) = false := by decide +kernel
theorem test_mark_at_count_0 : WellFormed (.markObserved 0) = false := by decide +kernel
theorem test_short_image : WellFormed (.cellReceived (List.replicate 29 0)) = false := by decide +kernel
theorem test_ticket_0 : WellFormed (.lifetimeExpiry 0) = false ∧ WellFormed (.ackTimerExpiry 0) = false := by decide +kernel
theorem test_not_a_lead_byte : WellFormed (.leadByte 0xC2 false) = false ∧ WellFormed (.leadByte 0xC3 true) = false := by
  decide +kernel
theorem test_no_row_has_bits : decodeTableWord 8 0x01 = none := by decide +kernel

/-! ## CRC and cells (02_cells_on_the_link.md) -/

/-- R23: the nine bytes 0x31 to 0x39 give 0x29B1. -/
theorem test_crc_check_value : crc16 [0x31, 0x32, 0x33, 0x34, 0x35, 0x36, 0x37, 0x38, 0x39] = 0x29B1 := by decide +kernel

/-- The queue of "Worked example: composing a three-cell message". -/
def threeCells (next : Option Nat) : State :=
  let r := posted 60 .routine true 0x224 40
  let r : Record :=
    match next with
    | none => r
    | some k =>
      { r with
        state := .sending, number := some 6, attempts := 1, pass := some { kind := .first, set := 0x224, nextIndex := k } }
  let s := holding [r] (lockedMember 3 17 [(4, 3), (10, 3), (14, 3)])
  { s with
    tx := { s.tx with lastNumber := 5 }
    rx := { s.rx with owed := if next.isNone then [{ source := 8, number := 11, epoch := 52 }] else [] } }

/-- Slot 4 of the worked example: index 0, FIRST, ACKREQ, number 6, 40 bytes, nodes 2, 5 and 9, the acknowledgement to node 8. -/
theorem test_slotStart_composes_first_cell :
    (result (exec (.slotStart 4) (threeCells none))).tx.cell.map (fun c => c.image.take 13)
      = some [0x23, 17, 0xA0, 6, 40, 0x02, 0x24, 0x21, 0x88, 11, 52, 16, 0] := by decide +kernel

/-- Slot 14 of the worked example: index 2, LAST, 8 bytes and then zeros, no acknowledgement. -/
theorem test_slotStart_composes_last_cell :
    (result (exec (.slotStart 14) (threeCells (some 2)))).tx.cell.map (fun c => (c.image.drop 2).take 20)
      = some ([0x62, 6, 40, 0x02, 0x24, 0x21, 0, 0, 0, 8] ++ [32, 33, 34, 35, 36, 37, 38, 39, 0, 0]) := by decide +kernel

/-- "One frame at a receiving member", slot 2: a notice for node 7's AWAITING record ends it DELIVERED. -/
theorem test_cellReceived_notice_delivers :
    let s := result (exec (.cellReceived (acknowledging 2 40 7 7 17)) (holding [awaiting 60 0x004 0x004 1 4] (node7 1)))
    s.tx.records = [] ∧ s.events.records.map (fun e => e.kind) = [.result 60 .delivered 1 0x004 0x004]
      ∧ s.tx.openSets.get 2 = 0x0080 := by decide +kernel

/-- "One frame at a receiving member", slot 6: a cell in a slot that nobody owns is foreign. -/
theorem test_cellReceived_foreign :
    (result (exec (.cellReceived (acknowledging 11 3 7 3 17)) (node7 6))).counters.foreign = 1 := by decide +kernel

/-! ## Requests, from "a host program meets the checks" (09_host_requests.md) and the tables -/

/-- IDENT, sequence 1. -/
theorem test_ident : answer (result (exec (.ident 1 []) running))
    = some (.ok, [0x45, 0xA1, 0x12, 0x16, 1, 0, 12, 16, 32, 64, 16, 96, 32, 16, 128, 250]) := by decide +kernel

/-- R143: what STATUS reads after a pin reset. -/
theorem test_status_after_reset : answer (result (exec (.status 1 []) running))
    = some (.ok, [0, 0, 0xFF, 0, 2, 4, 3, 0, 0, 0, 0, 0, 0, 0, 0, 0, 64, 0, 96, 0, 0, 0]) := by decide +kernel

/-- SEND, sequence 2, in UNCONFIGURED. -/
theorem test_send_unconfigured : answer (result (exec (.send 2 ([0, 1, 0, 4, 0, 0, 0] ++ message 8)) running))
    = some (.wrongState, []) := by decide +kernel

/-- CONFIGURE, sequence 3, sent with L = 7. -/
theorem test_configure_short : answer (result (exec (.configure 3 [0, 4, 31, 2, 4]) running)) = some (.badLength, []) := by
  decide +kernel

/-- CONFIGURE, sequence 4. -/
theorem test_configure : (result (exec (.configure 4 [0, 4, 31, 2, 4, 3]) running)).station
    = { state := .detached, config := ⟨.member, some 4, 31, 2, 4, 3⟩ } := by decide +kernel

/-- MAP_STAGE of slot 6 to node 4, sequence 5, on a member. -/
theorem test_mapStage_member : answer (result (exec (.mapStage 5 [6, 4]) (detachedStation .member 4 31)))
    = some (.notMaster, []) := by decide +kernel

/-- R36: the pair sets its slot. -/
theorem test_mapStage_sets_owner :
    (result (exec (.mapStage 5 [9, 4]) restingMaster)).map.staged = owning [(9, 4)] := by decide +kernel

/-- SEND, sequence 6: ticket 1. -/
theorem test_send_ticket_1 :
    answer (result (exec (.send 6 ([0, 1, 0, 4, 0, 0, 0] ++ message 8)) (detachedStation .member 4 31)))
      = some (.ok, [0, 1]) := by decide +kernel

/-- QUERY_TICKET, sequence 8: QUEUED, attempts 0, pending set node 2, number absent. -/
theorem test_queryTicket :
    answer (result (exec (.queryTicket 8 [0, 1]) (holding [posted 1 .routine true 4 8] (detachedStation .member 4 31))))
      = some (.ok, [0, 1, 1, 2, 0, 0, 0, 0, 4, 0, 4, 0, 0, 0, 0, 8, 0x21, 0, 0, 0, 0]) := by decide +kernel

/-- ATTACH, sequence 9: ATTACHED, lock SEARCH. -/
theorem test_attach_member :
    let s := result (exec (.attach 9 []) (detachedStation .member 4 31))
    s.station.state = .attached ∧ s.link.lock = .search := by decide +kernel

/-- R4: a master begins frame 0 without counting. -/
theorem test_attach_master :
    let s := result (exec (.attach 9 []) { restingMaster with link := { restingMaster.link with frame := 77 } })
    s.link.lock = .driving ∧ s.link.frame = 0 ∧ s.link.permission = true := by decide +kernel

/-- "A change heard well": the commit of frame 1000 with lead 5 is generation 7 at frame 1005. -/
theorem test_mapCommit_lead_5 : answer (result (exec (.mapCommit 1 [5]) (drivingMaster []))) = some (.ok, [0, 7, 0x03, 0xED]) := by
  decide +kernel

/-- R37: a lead of 3 is refused in DETACHED too. -/
theorem test_mapCommit_lead_3 : answer (result (exec (.mapCommit 1 [3]) restingMaster)) = some (.badParam, []) := by decide +kernel

/-- R40: after the switch a withdraw comes too late. -/
theorem test_mapWithdraw_too_late :
    answer (result (exec (.mapWithdraw 1 []) { restingMaster with map := { restingMaster.map with outcome := .applied } }))
      = some (.tooLate, []) := by decide +kernel

/-- R149: a reset part reads owners 15 everywhere and 0 elsewhere. -/
theorem test_mapRead_after_reset : answer (result (exec (.mapRead 1 []) running))
    = some (.ok, [0, 0, 0] ++ List.replicate 8 0xFF ++ [0, 0, 0, 0] ++ (List.replicate 7 0xFF ++ [0xF0])
        ++ (List.replicate 7 0xFF ++ [0xF0]) ++ [0, 0, 0, 0]) := by decide +kernel

/-- R93: CANCEL of an AWAITING record carries what its notices have built. -/
theorem test_cancel_awaiting :
    (result (exec (.cancel 1 [0, 60]) (holding [awaiting 60 0x224 0x020 2 4] (lockedMember 3 17 [])))).events.records.map
      (fun e => e.kind) = [.result 60 .cancelled 2 0x224 0x204] := by decide +kernel

/-- R94: CANCEL of a SENDING record. -/
theorem test_cancel_sending :
    answer (result (exec (.cancel 1 [0, 60]) (holding [sending .first false 1] (lockedMember 3 17 []))))
      = some (.cancelPending, []) := by decide +kernel

/-- R153, and "admission under pressure": the entry carries lost_before 1. -/
theorem test_fetchMessage :
    let e : Entry := { source := 2, tag := 9, payload := [7], ackreq := true, lostBefore := 1, frame := 3001 }
    let s : State := { running with rx := { running.rx with mailbox := [e], freeBlocks := 95 } }
    answer (result (exec (.fetchMessage 1 []) s)) = some (.ok, [2, 9, 1, 1, 1, 0x0B, 0xB9, 7])
      ∧ (result (exec (.fetchMessage 1 []) s)).rx.freeBlocks = 96 := by decide +kernel

/-- R154: an empty queue answers EMPTY with the pending lost count. -/
theorem test_fetchEvent_empty :
    answer (result (exec (.fetchEvent 21 []) { running with events := { running.events with pendingLost := 2 } }))
      = some (.empty, [2]) := by decide +kernel

/-- R154: LINK_UP (master 0, frame 814). -/
theorem test_fetchEvent_linkUp :
    let e : EventRecord := { kind := .linkUp (some 0), lostBefore := 0, frame := 814 }
    answer (result (exec (.fetchEvent 1 []) { running with events := { records := [e], heldCount := 0, nonResultCount := 1, pendingLost := 0 } }))
      = some (.ok, [2, 0, 0x03, 0x2E, 0]) := by decide +kernel

/-- R155: the readings are those before the clearing. -/
theorem test_counters_clear :
    let s := result (exec (.counters 1 [1]) { running with counters := { Counters.zero with eventsLost := 0x0102 } })
    answer s = some (.ok, List.replicate 26 0 ++ [1, 2]) ∧ s.counters = Counters.zero := by decide +kernel

/-- R156: node 2 is known at epoch 40 with last accepted number 3. -/
theorem test_peerRead : (answer (result (exec (.peerRead 1 []) (node7 1)))).map (fun a => (a.2.drop 8).take 4)
    = some [1, 40, 3, 0] := by decide +kernel

/-- R152: the next index of a pass that has three cells to go. -/
theorem test_queryTicket_next_index :
    (answer (result (exec (.queryTicket 8 [0, 60]) (holding [sending .first false 2] (lockedMember 3 17 []))))).map
      (fun a => a.2.getD 17 0) = some 2 := by decide +kernel

/-- R160: DETACH of a LOCKED member waits. -/
theorem test_detach_locked : answer (result (exec (.detach 1 []) (lockedMember 6 44 [(9, 6)]))) = some (.detachPending, []) := by
  decide +kernel

/-- R160, R162: DETACH in SEARCH completes at once. -/
theorem test_detach_search :
    let s := result (exec (.detach 1 []) (holding [posted 1 .routine true 4 8] (inLock .search 0 false)))
    answer s = some (.ok, []) ∧ s.station.state = .detached
      ∧ s.events.records.map (fun e => e.kind) = [.result 1 .flushed 0 4 0, .detached 1] := by decide +kernel

/-- R146: RESET is answered before it takes effect. -/
theorem test_reset_is_answered :
    let s := result (exec (.reset 1 []) (lockedMember 6 44 []))
    answer s = some (.ok, []) ∧ s.station.state = .attached := by decide +kernel

/-- R140: an unknown kind. -/
theorem test_unknown_kind : answer (result (exec (.unknownKindRequest 0x50 1 []) running)) = some (.unknownKind, []) := by
  decide +kernel

/-! ## The host line, from "a lost reply, a pipelined request and an overrun" (08_the_host_line.md) -/

/-- A good frame is executed. -/
theorem test_requestReceived_good :
    answer (result (exec (.requestReceived (requestFrame ⟨0x31, 21, []⟩)) running)) = some (.empty, [0]) := by decide +kernel

/-- A frame with a bad CRC during reply 21 is counted and disturbs nothing. -/
theorem test_requestReceived_bad_crc :
    let s := replying false (some ⟨2, 22, []⟩) running
    result (exec (.requestReceived [2, 2, 24, 0, 0]) s)
      = { s with counters := { s.counters with frameErrors := 1 }, host := { s.host with receive := .idle } } := by
  decide +kernel

/-- R132: after a bad length byte the next characters are examined in IDLE, and a good frame is executed. -/
theorem test_requestReceived_resynchronises :
    let s := result (exec (.requestReceived (1 :: 0x55 :: 0xC3 :: requestFrame ⟨0x31, 21, []⟩)) running)
    s.counters.frameErrors = 1 ∧ answer s = some (.empty, [0]) := by decide +kernel

/-- R136: a frame whose earlier bytes the reset of a RESET took is only a tail, and is never executed. -/
theorem test_tail_after_reset :
    let s := result (exec .resetTakesEffect (replying true none running))
    result (exec (.requestReceived (requestFrame ⟨0x01, 21, []⟩)) s) = s ∧ result (exec (.ident 21 []) s) = s := by decide +kernel

/-- R170: a frame whose lead byte fell inside the start-up interval is lost whole. -/
theorem test_lead_byte_in_startup :
    let s := result (exec .startupIntervalEnd (result (exec (.leadByte 0xC3 false) State.reset)))
    s = listening ∧ result (exec (.status 1 []) s) = s := by decide +kernel

/-- "a lost reply, a pipelined request and an overrun": a reply of sequence 22 with OVERRUN, without data. -/
theorem test_replyFrame :
    (replyFrame ⟨⟨0x82, 22, .wrongState, []⟩, false, true, false⟩).take 6 = [0x3C, 4, 0x82, 22, 0x05, 2] := by decide +kernel

/-- R128: 0x3C on HTX is a low start bit, bits 0 to 7 and a high stop bit; then the next character's start bit. -/
theorem test_htx :
    ((List.range 11).map fun k => htxHigh (replying false none running) k)
      = [false, false, false, true, true, true, true, false, false, true, false] := by decide +kernel

/-- Reply 21 ends; STATUS 22 is taken up, and its reply carries OVERRUN. -/
theorem test_replyEnd_takes_up :
    let s := replying false (some ⟨2, 22, []⟩) running
    let t := result (exec .replyTransmissionEnd { s with host := { s.host with overrun := true } })
    t.host.sending.map (fun r => (r.reply.seq, r.replay, r.overrun)) = some (22, false, true) ∧ t.host.waiting = none := by
  decide +kernel

/-- SEND, sequence 20, sent again: answered by the kept reply, no second record. -/
theorem test_replay :
    let kept : Reply := { kind := 0xA0, seq := 20, status := .ok, data := [0, 71] }
    let s := result (exec (.send 20 [0, 1, 0, 4, 0, 0, 0]) { running with host := { running.host with kept := some kept } })
    s.host.sending.map (fun r => (r.reply, r.replay)) = some (kept, true) ∧ s.tx.records = [] := by decide +kernel

theorem test_hostFrameError : (result (exec (.hostFrameError .crcMismatch) running)).counters.frameErrors = 1 := by decide +kernel

/-- R131: in IDLE nothing is counted. -/
theorem test_hostFrameError_idle : result (exec (.hostFrameError .characterFault) listening) = listening := by decide +kernel

/-- R133: the timer runs only in IN_FRAME. -/
theorem test_gapTimeout_idle : result (exec .gapTimeout listening) = listening := by decide +kernel

theorem test_gapTimeout_inFrame : (result (exec .gapTimeout running)).counters.frameErrors = 1 := by decide +kernel

/-- R131, R132: 0xC3 begins a frame; a faulty one does not, and inside a frame it is an error. -/
theorem test_leadByte :
    result (exec (.leadByte 0xC3 false) listening) = running ∧ result (exec (.leadByte 0xC3 true) listening) = listening
      ∧ (result (exec (.leadByte 0xC3 true) running)).counters.frameErrors = 1 := by decide +kernel

/-! ## Resets and start-up -/

/-- R164: the rate is kept and the waiting request is gone. -/
theorem test_resetTakesEffect :
    let s := result (exec .resetTakesEffect (replying true (some ⟨1, 1, []⟩) (lockedMember 6 44 [])))
    s.host = { State.reset.host with rate := 1 } ∧ s.station.state = .unconfigured ∧ s.phase = .running := by decide +kernel

theorem test_pinResetAssert : (result (exec .pinResetAssert (drivingMaster []))).link.lock = .off := by decide +kernel

/-- R128: straps 10 are the rate. -/
theorem test_pinResetRelease :
    (result (exec (.pinResetRelease 2) (result (exec .pinResetAssert running)))).host.rate = 2 := by decide +kernel

theorem test_startupIntervalEnd : (result (exec .startupIntervalEnd State.reset)).phase = .running := by decide +kernel

/-! ## Frames and lock (01_frames_slots_and_lock.md) -/

/-- R5: 65535 is followed by 0. -/
theorem test_masterFrameBoundary_wraps :
    let s := drivingMaster []
    (result (exec .masterFrameBoundary { s with link := { s.link with frame := 65535 } })).link.frame = 0 := by decide +kernel

/-- R42: frame 1001 carries the pending map of generation 7, effective in frame 1005. -/
theorem test_masterFrameBoundary_announces :
    let s := drivingMaster []
    let p : PendingMap := { map := { owners := owning [(9, 4)], generation := 7 }, effective := 1005 }
    (result (exec .masterFrameBoundary { s with map := { s.map with pendingMap := some p } })).map.content
      = some [0x03, 0xE9, 6, 3, 0x03, 0xED, 7, 0xFF, 0xFF, 0xFF, 0xFF, 0x4F, 0xFF, 0xFF, 0xF0, 2] := by decide +kernel

/-- "A member finds the master": the mark at count 4096 brings LINK_UP (master 0, frame 814). -/
theorem test_markObserved_link_up :
    let s := result (exec (.markObserved 4096) (inLock .verify 0 true))
    s.link.lock = .locked ∧ s.events.records = [{ kind := .linkUp (some 0), lostBefore := 0, frame := 814 }] := by
  decide +kernel

/-- R10: a mark at a count below 4096. -/
theorem test_markObserved_misplaced :
    let s := result (exec (.markObserved 4095) (inLock .locked 0 true))
    s.link.lock = .verify ∧ s.events.records.map (fun e => e.kind) = [.linkDown .markMisplaced] := by decide +kernel

/-- The first missing mark. -/
theorem test_missedMark_coasts :
    let s := result (exec .missedMark (inLock .locked 0 true))
    s.link.lock = .coast ∧ s.link.missed = 1 ∧ s.link.frame = 814 := by decide +kernel

/-- "Later the master's card loses its LMK driver": the third miss. -/
theorem test_missedMark_third :
    let s := result (exec .missedMark (inLock .coast 2 true))
    s.link.lock = .search ∧ s.link.frame = 813 ∧ s.counters.lockLosses = 1
      ∧ s.events.records.map (fun e => e.kind) = [.linkDown .marksMissed] := by decide +kernel

/-- R12: from VERIFY no event and no lock loss. -/
theorem test_clockLoss_verify :
    let s := result (exec .clockLoss (inLock .verify 0 true))
    s.link.lock = .search ∧ s.events.records = [] ∧ s.counters.lockLosses = 0 := by decide +kernel

/-- R10 and R96: a first pass is cut. -/
theorem test_clockLoss_cuts :
    (result (exec .clockLoss (holding [sending .first false 1] (lockedMember 3 17 [])))).tx.records
      = [posted 60 .routine true 0x024 40] := by decide +kernel

/-- "Four records through one station": T43's pass ends SENT. -/
theorem test_passEnd_sent :
    let r : Record :=
      { posted 43 .urgent false 0x100 40 with state := .sending, attempts := 1, pass := some ⟨.first, 0x100, 3⟩ }
    let s := holding [r] (lockedMember 3 17 [(12, 3)])
    let t := result (exec .passEnd { s with tx := { s.tx with cell := some ⟨12, [], some 43⟩ } })
    t.events.records.map (fun e => e.kind) = [.result 43 .sent 1 0x100 0] ∧ t.tx.freeBlocks = 64 := by decide +kernel

/-- R86: an acknowledged record with nodes pending awaits, with the ack wait 4. -/
theorem test_passEnd_awaits :
    let s := holding [sending .first false 3] (lockedMember 3 17 [(12, 3)])
    (result (exec .passEnd { s with tx := { s.tx with cell := some ⟨12, [], some 60⟩ } })).tx.records.map
      (fun r => (r.state, r.ackTimer)) = [(.awaiting, 4)] := by decide +kernel

/-! ## Work at boundaries -/

/-- T41 of "Four records through one station": EXPIRED with attempts 0. -/
theorem test_lifetimeExpiry :
    (result (exec (.lifetimeExpiry 41) (owingWork [.lifetime 41] (holding [posted 41 .routine false 0x020 8]
      (lockedMember 3 17 []))))).events.records.map (fun e => e.kind) = [.result 41 .expired 0 0x020 0] := by decide +kernel

/-- "A multicast that ends PARTIAL": with retry limit 1, attempts 2 end it. -/
theorem test_ackTimerExpiry_partial :
    let s := owingWork [.ackTimer 205] (holding [awaiting 205 0x014 0x010 2 0] (lockedMember 8 90 []))
    let s : State := { s with station := { s.station with config := { s.station.config with retryLimit := 1 } } }
    (result (exec (.ackTimerExpiry 205) s)).events.records.map (fun e => e.kind) = [.result 205 .partly 2 0x014 0x004] := by
  decide +kernel

/-- The same exchange at 904: within the limit, RETRY. -/
theorem test_ackTimerExpiry_retry :
    (result (exec (.ackTimerExpiry 205) (owingWork [.ackTimer 205] (holding [awaiting 205 0x014 0x010 1 0]
      (lockedMember 8 90 []))))).tx.retryOrder = [205] := by decide +kernel

/-- R110: an ASSEMBLING context counts as a break. -/
theorem test_reassemblyTimeout :
    let s := owingWork [.reassembly 2] (node7With (.assembling { assembly20 with frames := 16 }))
    let t := result (exec (.reassemblyTimeout 2) { s with rx := { s.rx with freeBlocks := 94 } })
    t.counters.breaks = 1 ∧ t.rx.freeBlocks = 96 ∧ t.rx.contexts.get 2 = .idle := by decide +kernel

/-- The boundary of 1005 in "a change heard well". -/
theorem test_mapSwitch :
    let s := drivingMaster []
    let p : PendingMap := { map := { owners := owning [(9, 4)], generation := 7 }, effective := 1005 }
    let t := result (exec .mapSwitch (owingWork [.mapSwitch] { s with map := { s.map with pendingMap := some p, outcome := .pending } }))
    t.map.active = some p.map ∧ t.map.outcome = .applied ∧ t.events.records.map (fun e => e.kind) = [.mapApplied 7 1005] := by
  decide +kernel

/-- "A member detaches with work in flight": T81 is FLUSHED and DETACHED reports one record. -/
theorem test_detachCompletion :
    let s := owingWork [.completion] (holding [retrying 81 0x008 0x008] (lockedMember 6 44 [(9, 6)]))
    let t := result (exec .detachCompletion { s with station := { s.station with state := .detaching } })
    t.events.records.map (fun e => e.kind) = [.result 81 .flushed 1 0x008 0, .detached 1] ∧ t.station.state = .detached
      ∧ t.events.heldCount = 1 := by decide +kernel

/-- A detaching member with sixteen non-result events held, whose boundary has left the switch and the completion to do. -/
def fullAndDetaching : State :=
  let s := owingWork [.mapSwitch, .completion] (lockedMember 6 44 [(9, 6)])
  let e : EventRecord := { kind := .linkUp (some 0), lostBefore := 0, frame := 9 }
  { s with
    station := { s.station with state := .detaching }
    map := { s.map with pendingMap := some ⟨map6 [], 700⟩ }
    events := { records := List.replicate 16 e, heldCount := 0, nonResultCount := 16, pendingLost := 0 } }

/-- A detaching master at whose boundary two lifetimes and the completion are left to do. -/
def twoExpiring : State :=
  let post (t : Ticket) : Record := { posted t .routine false 2 8 with lifetime := 1 }
  let s := owingWork [.lifetime 41, .lifetime 42, .completion] (holding [post 41, post 42] (drivingMaster []))
  { s with station := { s.station with state := .detaching } }

/-- The same with the first of the two expired. -/
def halfExpired : State := result (exec (.lifetimeExpiry 41) twoExpiring)

/-- R163: with the Transmit Scheduler's work begun, the rest of it comes before the completion, and no record is flushed. -/
theorem test_detachCompletion_after_expiry :
    let t := result (exec .detachCompletion halfExpired)
    t.events.records.map (fun e => e.kind) = [.result 41 .expired 0 2 0, .result 42 .expired 0 2 0, .detached 0]
      ∧ t.due = [] := by
  decide +kernel

/-- R163: with the completion taken first every record is flushed, and the boundary work finds none. -/
theorem test_detachCompletion_before_expiry :
    let t := result (exec .detachCompletion twoExpiring)
    t.events.records.map (fun e => e.kind) = [.result 41 .flushed 0 2 0, .result 42 .flushed 0 2 0, .detached 2]
      ∧ exec (.lifetimeExpiry 42) t = .next t := by
  refine ⟨by decide +kernel, by rfl⟩

/-- R125: a fetch taken between the switch, whose MAP_APPLIED is dropped, and the completion makes room for DETACHED. -/
theorem test_fetch_between_two_offers :
    let s := result (exec (.fetchEvent 1 []) (result (exec .mapSwitch fullAndDetaching)))
    let t := result (exec .detachCompletion s)
    s.due = [.completion] ∧ t.events.records.getLast?.map (fun e => (e.kind, e.lostBefore)) = some (.detached 0, 1)
      ∧ t.events.nonResultCount = 16 := by decide +kernel

/-- R125: with the fetch taken after both offers, both are dropped. -/
theorem test_fetch_after_two_offers :
    let t := result (exec .detachCompletion (result (exec .mapSwitch fullAndDetaching)))
    (result (exec (.fetchEvent 1 []) t)).events.pendingLost = 2
      ∧ (result (exec (.fetchEvent 1 []) t)).events.nonResultCount = 15 := by decide +kernel

/-- R40: a withdraw taken before the switch of the boundary that begins the effective frame: no switch follows it. -/
theorem test_mapWithdraw_before_switch :
    let s := drivingMaster [(9, 4)]
    let s := owingWork [.mapSwitch] { s with map := { s.map with pendingMap := some ⟨map6 [], 1000⟩, outcome := .pending } }
    let t := result (exec (.mapWithdraw 1 []) s)
    answer t = some (.ok, []) ∧ t.map.outcome = .withdrawn ∧ t.due = [] ∧ exec .mapSwitch t = .next t := by
  refine ⟨by decide +kernel, by decide +kernel, by decide +kernel, by rfl⟩

/-! ## Witnesses: the hypotheses of each statement are met, clause by clause -/

/-- A master that the statements about boundaries and slots take. -/
def ownSlots : State := drivingMaster [(1, 0), (15, 0)]

/-- StepRunsTheFrontCommand. -/
theorem witness_StepRunsTheFrontCommand : State.reset.pending = [] := by decide +kernel

/-- BoundaryWorkComesFirst: link events, with two items left; an item not left; one item left; a request with two items left. -/
theorem witness_BoundaryWorkComesFirst :
    let owes := owingWork [.mapSwitch, .completion] ownSlots
    (settlesFirst .masterFrameBoundary = true ∧ settlesFirst (.slotStart 15) = true)
      ∧ Work.reassembly 11 ∉ ownSlots.due ∧ (owingWork [.lifetime 65535] ownSlots).due = [.lifetime 65535]
      ∧ 2 ≤ owes.due.length
      ∧ (requestOf (.fetchEvent 1 []) = some ⟨0x31, 1, []⟩ ∧ executesNow 1 owes ∧ (0x31 : Byte).toNat ∉ [0x04, 0x05, 0x12]
          ∧ (∃ t, exec (.fetchEvent 1 []) owes = .next t) ∧ owes.due = [.mapSwitch, .completion]) := by
  refine ⟨by decide +kernel, by decide +kernel, by decide +kernel, by decide +kernel, by decide +kernel, by decide +kernel,
    by decide +kernel, ⟨_, rfl⟩, by decide +kernel⟩

/-- TimeThatHasPassed: each later event, with a cell that ends no pass, with one that ends a pass, and with a decision open. -/
theorem witness_TimeThatHasPassed :
    let plain := { ownSlots with tx := { ownSlots.tx with cell := some ⟨15, [], none⟩ } }
    let last := { inLock .coast 1 true with tx := { running.tx with cell := some ⟨15, [], some 60⟩ } }
    let open_ := { inLock .locked 0 true with link := { (inLock .locked 0 true).link with decisionDue := true } }
    (plain.due = [] ∧ plain.link.lock = .driving ∧ plain.tx.cell = some ⟨15, [], none⟩)
      ∧ (last.due = [] ∧ last.link.lock = .coast ∧ last.tx.cell = some ⟨15, [], some 60⟩
          ∧ ∃ u, exec .passEnd last = .next u)
      ∧ (open_.due = [] ∧ announcesSlots open_.link.lock = true ∧ open_.link.nextSlot ≤ (1 : Slot).val ∧ open_.tx.cell = none
          ∧ open_.link.decisionDue = true ∧ open_.link.lock ≠ .driving ∧ Instr.slotStart 1 ≠ .slotStart 0) := by
  refine ⟨by decide +kernel, ⟨by decide +kernel, by decide +kernel, by decide +kernel, _, rfl⟩, by decide +kernel⟩

/-- PinResetAndStartup. -/
theorem witness_PinResetAndStartup :
    (result (exec .pinResetAssert ownSlots)).phase = .held ∧ onHrx (.leadByte 0xC3 false) = true
      ∧ onHrx (.reset 255 []) = true ∧ State.reset.phase = .startup ∧ (∀ straps, Instr.passEnd ≠ .pinResetRelease straps) := by
  decide +kernel

/-- ResetTakesEffectAtItsReplysEnd. -/
theorem witness_ResetTakesEffect :
    executesNow 255 ownSlots
      ∧ ((replying true none ownSlots).host.sending.map fun r => r.resets) = some true
      ∧ (replying true none ownSlots).phase = .running ∧ (replying true none ownSlots).due = [] := by decide +kernel

/-- RequestFramesAreReadBack: the longest body. -/
theorem witness_RequestFramesAreReadBack : (message 248).length ≤ 248 ∧ executesNow 0 running := by decide +kernel

/-- RequestIsReplayedWaitsOrIsDiscarded: each of the three. -/
theorem witness_RequestIsReplayed :
    let kept := { running with host := { running.host with kept := some ⟨0x81, 7, .ok, []⟩ } }
    requestOf (.ident 7 []) = some ⟨0x01, 7, []⟩
      ∧ (kept.phase = .running ∧ kept.host.receive = .inFrame [] ∧ kept.due = [] ∧ kept.host.sending = none ∧ kept.host.waiting = none
          ∧ kept.host.kept.map (fun k => k.seq) = some 7)
      ∧ ((replying false none running).phase = .running ∧ (replying false none running).host.receive = .inFrame []
          ∧ (replying false none running).host.sending.isSome = true
          ∧ (replying false none running).host.waiting = none)
      ∧ (replying false (some ⟨2, 22, []⟩) running).host.waiting.isSome = true := by decide +kernel

/-- ReplyEndTakesUpTheWaitingRequest: with and without a request waiting. -/
theorem witness_ReplyEnd :
    ((replying false none running).host.sending.map fun r => r.resets) = some false
      ∧ (replying false none running).phase = .running ∧ (replying false none running).host.waiting = none
      ∧ (replying false (some ⟨2, 22, []⟩) running).host.waiting = some ⟨2, 22, []⟩ := by decide +kernel

/-- HostLineReception: both receive states, length bytes at both ends of the range and beside them, a CRC that differs, and characters
after which no boundary work is left. -/
theorem witness_HostLineReception :
    (listening.phase = .running ∧ listening.due = [] ∧ listening.host.receive = .idle
        ∧ 0xC3 ∉ requestFrame ⟨0x01, 21, []⟩ ∧ requestOf (.ident 21 []) = some ⟨0x01, 21, []⟩)
      ∧ (running.phase = .running ∧ running.due = [] ∧ running.host.receive = .inFrame [])
      ∧ (1 : Byte).toNat < 2 ∧ 250 < (251 : Byte).toNat ∧ 2 ≤ (2 : Byte).toNat ∧ (250 : Byte).toNat ≤ 250
      ∧ (message 251).length < (250 : Byte).toNat + 2 ∧ ([2, 24] : List Byte).length = (2 : Byte).toNat
      ∧ crc16 [2, 2, 24] ≠ (0 : Byte) ++ (0 : Byte)
      ∧ ∃ t, exec (.requestReceived [2]) running = .next t ∧ t.due = [] :=
  ⟨by decide +kernel, by decide +kernel, by decide +kernel, by decide +kernel, by decide +kernel, by decide +kernel,
    by decide +kernel, by decide +kernel, by decide +kernel, _, rfl, by decide +kernel⟩

/-- RepliesAreFramed: the longest data, and an executed request. -/
theorem witness_RepliesAreFramed :
    (message 246).length ≤ 246 ∧ requestOf (.ident 1 []) = some ⟨0x01, 1, []⟩ ∧ executesNow 1 running
      ∧ ∃ t, exec (.ident 1 []) running = .next t :=
  ⟨by decide +kernel, by decide +kernel, by decide +kernel, _, rfl⟩

/-- PinsFollowTheState: a driving master and a member; a cell and none; a reply and none. -/
theorem witness_Pins :
    let s : State :=
      { replying false none ownSlots with tx := { ownSlots.tx with cell := some ⟨15, List.replicate 30 0xA5, none⟩ } }
    s.link.lock = .driving ∧ (s.tx.cell.map fun c => c.image.length) = some 30
      ∧ (s.host.sending.map fun r => (replyFrame r)[0]?) = some (some 0x3C)
      ∧ running.link.lock ≠ .driving ∧ running.tx.cell = none ∧ running.host.sending = none := by decide +kernel

/-- GeneralChecksAnswerInOrder: a code no kind has, lengths beside the fitting ones, and requests turned away in each state. -/
theorem witness_GeneralChecks :
    executesNow 1 running ∧ (∀ k : RequestKind, k.code ≠ 0x00) ∧ (∀ k : RequestKind, k.code ≠ 0x7E)
      ∧ ¬lengthFits .send 8 ∧ lengthFits .send 9 ∧ ¬lengthFits .configure 7 ∧ lengthFits .configure 8 ∧ ¬lengthFits .ident 3
      ∧ turnedAway .configure .attached .member = some .wrongState ∧ turnedAway .attach .unconfigured .member = some .wrongState
      ∧ turnedAway .mapCommit .detaching .member = some .notMaster
      ∧ turnedAway .mapCommit .detaching .master = some .wrongState := by
  refine ⟨by decide +kernel, ?_, ?_, by unfold lengthFits; decide, by unfold lengthFits; decide, by unfold lengthFits; decide,
    by unfold lengthFits; decide, by unfold lengthFits; decide, rfl, rfl, rfl, rfl⟩ <;> intro k <;> cases k <;> decide

/-- RefusedRequestsChangeNothing. -/
theorem witness_RefusedRequests :
    requestOf (.send 1 []) = some ⟨0x20, 1, []⟩ ∧ executesNow 1 running ∧ ∃ t, exec (.send 1 []) running = .next t :=
  ⟨by decide +kernel, by decide +kernel, _, rfl⟩

/-- The statements about executed requests in any state: IdentAndStatus, MapRead, PeerRead, Counters. -/
theorem witness_reports : executesNow 0 ownSlots ∧ executesNow 255 running := by decide +kernel

/-- MapReadReportsTheMapUnit: with and without an active and a pending map. -/
theorem witness_MapRead :
    running.map.active = none ∧ running.map.pendingMap = none ∧ ownSlots.map.active = some (map6 [(1, 0), (15, 0)])
      ∧ ({ ownSlots.map with pendingMap := some ⟨map6 [], 1255⟩ } : MapUnit).pendingMap = some ⟨map6 [], 1255⟩
      ∧ ((1255 : Half) - ownSlots.link.frame).toNat ≤ 255 ∧ Work.mapSwitch ∉ ownSlots.due
      ∧ (executesNow 0 (owingWork [.mapSwitch] ownSlots) ∧ Work.mapSwitch ∈ (owingWork [.mapSwitch] ownSlots).due) := by
  decide +kernel

/-- QueryTicketReportsTheRecord: with and without the record. -/
theorem witness_QueryTicket :
    let s := holding [sending .retransmission true 2, awaiting 65535 0xFFE 0x800 8 15] (lockedMember 0 1 [])
    executesNow 1 s ∧ (∀ r ∈ s.tx.records, r.ticket ≠ (0 : Byte) ++ (0 : Byte))
      ∧ named ((255 : Byte) ++ (255 : Byte)) (awaiting 65535 0xFFE 0x800 8 15) s := by decide +kernel

/-- FetchesReturnTheOldest: both empty, and both held. -/
theorem witness_Fetches :
    let e : Entry := { source := 11, tag := 9, payload := message 128, ackreq := true, lostBefore := 255, frame := 65535 }
    let v : EventRecord := { kind := .detached 32, lostBefore := 255, frame := 65535 }
    let s : State :=
      { running with
        rx := { running.rx with mailbox := [e], freeBlocks := 88 }
        events := { records := [v], heldCount := 0, nonResultCount := 1, pendingLost := 0 } }
    executesNow 1 running ∧ running.rx.mailbox = [] ∧ running.events.records = []
      ∧ executesNow 1 s ∧ s.rx.mailbox = [e] ∧ s.events.records = [v] := by decide +kernel

/-- Thirty-one records without payload. -/
def nearlyFull (n : Nat) : State :=
  holding ((List.range n).map fun i => posted (BitVec.ofNat 16 (i + 100)) .routine false 2 0) (detachedStation .member 0 1)

/-- SendIsAccepted: the last free place, the longest payload, the whole set of other nodes, and a ticket counter on a held ticket. -/
theorem witness_SendIsAccepted :
    executesNow 1 (nearlyFull 31) ∧ queueAccounts (nearlyFull 31) ∧ (nearlyFull 31).station.state = .detached
      ∧ ((0x0F : Byte) ++ (0xFE : Byte)).toNat ≠ 0 ∧ ((0x0F : Byte) ++ (0xFE : Byte)).toNat < 4096
      ∧ (∀ n, (nearlyFull 31).station.config.node = some n → ((0x0F : Byte) ++ (0xFE : Byte)).getLsbD n.val = false)
      ∧ (message 128).length ≤ 128
      ∧ (nearlyFull 31).tx.records.length + (resultTickets (nearlyFull 31).events.records).length < 32
      ∧ blocks (message 128).length ≤ (nearlyFull 31).tx.freeBlocks
      ∧ ∃ r ∈ (nearlyFull 31).tx.records, r.ticket = (nearlyFull 31).tx.nextTicket := by decide +kernel

/-- SendChecksInOrder: each check at its edge. -/
theorem witness_SendChecksInOrder :
    let poor := holding [posted 1 .routine false 2 128, posted 2 .routine false 2 128, posted 3 .routine false 2 128,
      posted 4 .routine false 2 128, posted 5 .routine false 2 128, posted 6 .routine false 2 128, posted 7 .routine false 2 128,
      posted 8 .routine false 2 128] (detachedStation .member 0 1)
    (executesNow 1 running ∧ resultPlaces running ∧ running.station.state = .unconfigured)
      ∧ (executesNow 1 (nearlyFull 32) ∧ resultPlaces (nearlyFull 32) ∧ (nearlyFull 32).station.state = .detached
          ∧ (nearlyFull 32).tx.records.length + (resultTickets (nearlyFull 32).events.records).length = 32)
      ∧ (executesNow 1 poor ∧ resultPlaces poor ∧ poor.tx.freeBlocks < blocks 1 ∧ blocks 0 ≤ poor.tx.freeBlocks)
      ∧ 1 < (2 : Byte).toNat ∧ 4096 ≤ ((0x10 : Byte) ++ (0 : Byte)).toNat ∧ 128 < (message 129).length := by decide +kernel

/-- CancelEndsOrMarksTheRecord: no record, a SENDING one, another one, and UNCONFIGURED. -/
theorem witness_Cancel :
    let s := holding [sending .first false 1, awaiting 61 4 4 1 4] (lockedMember 3 17 [])
    executesNow 1 s ∧ s.station.state ≠ .unconfigured ∧ (∀ r ∈ s.tx.records, r.ticket ≠ (0 : Byte) ++ (62 : Byte))
      ∧ named ((0 : Byte) ++ (60 : Byte)) (sending .first false 1) s ∧ (sending .first false 1).state = .sending
      ∧ named ((0 : Byte) ++ (61 : Byte)) (awaiting 61 4 4 1 4) s ∧ (awaiting 61 4 4 1 4).state ≠ .sending
      ∧ executesNow 1 running ∧ running.station.state = .unconfigured := by decide +kernel

/-- ConfigureWritesTheWhole and ConfigureChecksItsBytes: the ends of the ranges, and a record in the way. -/
theorem witness_Configure :
    executesNow 1 running ∧ running.station.state = .unconfigured ∧ running.tx.records = [] ∧ (255 : Byte) ≠ 0
      ∧ 2 ≤ 15 ∧ 15 ≤ 15 ∧ 7 ≤ 7
      ∧ executesNow 1 (nearlyFull 1) ∧ (nearlyFull 1).station.state = .detached ∧ (nearlyFull 1).tx.records ≠ []
      ∧ ((1 : Byte).toNat ≤ 1 ∧ (11 : Byte).toNat ≤ 11 ∧ 1 ≤ (1 : Byte).toNat ∧ (3 : Byte).toNat ≤ 3 ∧ 2 ≤ (2 : Byte).toNat
          ∧ (15 : Byte).toNat ≤ 15 ∧ (7 : Byte).toNat ≤ 7)
      ∧ ¬(12 : Byte).toNat ≤ 11 ∧ ¬1 ≤ (0 : Byte).toNat ∧ ¬2 ≤ (1 : Byte).toNat ∧ ¬(16 : Byte).toNat ≤ 15
      ∧ ¬(8 : Byte).toNat ≤ 7 := by decide +kernel

/-- AttachJoinsTheLink: both roles. -/
theorem witness_Attach :
    (restingMaster.map.active = some (map6 [(4, 3)]) ∧ restingMaster.map.pendingMap = none)
      ∧ (executesNow 1 (detachedStation .member 11 255) ∧ (detachedStation .member 11 255).station.state = .detached
        ∧ (detachedStation .member 11 255).station.config.role = .member)
      ∧ executesNow 1 restingMaster ∧ restingMaster.station.state = .detached ∧ restingMaster.station.config.role = .master := by
  decide +kernel

/-- DetachRepliesByState: waiting, already DETACHING, and at once. -/
theorem witness_Detach :
    (executesNow 1 ownSlots ∧ ownSlots.station.state = .attached ∧ ownSlots.link.lock = .driving)
      ∧ (inLock .coast 1 true).link.lock = .coast
      ∧ executesNow 1 { ownSlots with station := { ownSlots.station with state := .detaching } }
      ∧ (executesNow 1 (inLock .verify 0 true) ∧ (inLock .verify 0 true).station.state = .attached) := by decide +kernel

/-- A list of pairs as MAP_STAGE takes it, and the check of it. -/
abbrev good (pairs : List (Byte × Byte)) : Prop :=
  1 ≤ pairs.length ∧ pairs.length ≤ 15
    ∧ (∀ p ∈ pairs, 1 ≤ p.1.toNat ∧ p.1.toNat ≤ 15 ∧ (p.2.toNat ≤ 11 ∨ p.2.toNat = 15))
    ∧ (pairs.map fun p => p.1).Nodup

def isGood (pairs : List (Byte × Byte)) : Bool :=
  decide (1 ≤ pairs.length) && decide (pairs.length ≤ 15)
    && pairs.all (fun p => decide (1 ≤ p.1.toNat ∧ p.1.toNat ≤ 15 ∧ (p.2.toNat ≤ 11 ∨ p.2.toNat = 15)))
    && decide (pairs.map fun p => p.1).Nodup

theorem isGood_iff (pairs : List (Byte × Byte)) : isGood pairs = true ↔ good pairs := by
  simp only [isGood, good, Bool.and_eq_true, decide_eq_true_iff, List.all_eq_true, and_assoc]

/-- MapStageSetsTheOwnersNamed: fifteen good pairs, and lists with one fault each. -/
theorem witness_MapStage :
    executesNow 1 restingMaster ∧ restingMaster.station.state ≠ .unconfigured ∧ restingMaster.station.config.role = .master
      ∧ good ((List.range 15).map fun i => (BitVec.ofNat 8 (i + 1), (11 : Byte))) ∧ good [(15, 15)] ∧ ¬good [] ∧ ¬good [(0, 1)]
      ∧ ¬good [(16, 1)] ∧ ¬good [(1, 12)] ∧ ¬good [(1, 16)] ∧ ¬good [(1, 2), (1, 3)] := by
  simp only [← isGood_iff]
  decide +kernel

/-- MapCommitInstallsOrAnnounces: leads 3, 4 and 255, and a map already pending. -/
theorem witness_MapCommit :
    let held := { ownSlots with map := { ownSlots.map with pendingMap := some ⟨map6 [], 1004⟩ } }
    executesNow 1 restingMaster ∧ restingMaster.station.config.role = .master ∧ restingMaster.station.state = .detached
      ∧ (3 : Byte).toNat < 4 ∧ 4 ≤ (4 : Byte).toNat ∧ 4 ≤ (255 : Byte).toNat ∧ restingMaster.map.active = some (map6 [(4, 3)])
      ∧ (executesNow 1 ownSlots ∧ ownSlots.station.state = .attached ∧ ownSlots.map.pendingMap = none
          ∧ ownSlots.map.active = some (map6 [(1, 0), (15, 0)]))
      ∧ executesNow 1 held ∧ held.map.pendingMap.isSome = true := by decide +kernel

/-- MapWithdrawTakesThePendingMapBack: each row of R40. -/
theorem witness_MapWithdraw :
    let held := { ownSlots with map := { ownSlots.map with pendingMap := some ⟨map6 [], 1004⟩ } }
    let switching := owingWork [.mapSwitch] held
    let done := { ownSlots with map := { ownSlots.map with outcome := .applied } }
    (executesNow 1 running ∧ running.station.state = .unconfigured)
      ∧ (executesNow 1 (inLock .search 0 false) ∧ (inLock .search 0 false).station.config.role = .member)
      ∧ (executesNow 1 held ∧ held.map.pendingMap.isSome = true ∧ held.station.config.role = .master ∧ Work.mapSwitch ∉ held.due)
      ∧ (executesNow 1 switching ∧ Work.mapSwitch ∈ switching.due ∧ switching.map.active = some (map6 [(1, 0), (15, 0)])
          ∧ switching.map.pendingMap.isSome = true ∧ switching.station.config.role = .master)
      ∧ (executesNow 1 done ∧ done.map.pendingMap = none ∧ done.map.outcome = .applied)
      ∧ executesNow 1 ownSlots ∧ ownSlots.map.pendingMap = none ∧ ownSlots.map.outcome = .nothing := by decide +kernel

/-- MasterBoundaryBeginsOrEndsTheFrames. -/
theorem witness_MasterBoundary :
    ownSlots.due = [] ∧ ownSlots.link.lock = .driving ∧ ownSlots.tx.cell = none ∧ ownSlots.station.state ≠ .detaching
      ∧ ({ ownSlots.station with state := .detaching } : Station).state = .detaching := by decide +kernel

/-- ControlContentIsComposedAtTheBoundary: with nothing pending, with a map pending in the odd frame 1001, and at its switch. -/
theorem witness_ControlContent :
    let held (frame : Half) := { ownSlots with map := { ownSlots.map with pendingMap := some ⟨map6 [], frame⟩ } }
    (ownSlots.due = [] ∧ ownSlots.link.lock = .driving ∧ ownSlots.station.state = .attached
        ∧ ownSlots.station.config.role = .master ∧ ownSlots.map.active = some (map6 [(1, 0), (15, 0)])
        ∧ ∃ t, exec .masterFrameBoundary ownSlots = .next t ∧ Work.mapSwitch ∉ t.due)
      ∧ (∃ t, exec .masterFrameBoundary (held 1004) = .next t ∧ Work.mapSwitch ∉ t.due
          ∧ (held 1004).map.pendingMap = some ⟨map6 [], 1004⟩ ∧ t.link.frame.toNat % 2 = 1)
      ∧ (held 1001).tx.cell = none ∧ (1001 : Half) = (held 1001).link.frame + 1 := by
  refine ⟨⟨?_, ?_, ?_, ?_, ?_, _, rfl, ?_⟩, ⟨_, rfl, ?_, ?_, ?_⟩, ?_, ?_⟩ <;> decide +kernel

/-- MemberFindsTheFrame: each clause, the last early count among them. -/
theorem witness_MemberFindsTheFrame :
    (inLock .search 0 false).due = [] ∧ (inLock .search 0 false).link.lock = .search
      ∧ (inLock .verify 0 true).link.lock = .verify ∧ (inLock .verify 0 true).link.controlFlag = true
      ∧ (4095 : Fin 4097).val < 4096 ∧ (inLock .verify 0 false).link.controlFlag = false ∧ running.link.lock = .off
      ∧ ownSlots.link.lock = .driving := by decide +kernel

/-- MemberCountsItsBoundaries: LOCKED, and COAST with missed count 1. -/
theorem witness_MemberCounts :
    (inLock .locked 0 true).due = [] ∧ (inLock .locked 0 true).tx.cell = none ∧ (inLock .locked 0 true).link.decisionDue = false
      ∧ (inLock .locked 0 true).link.lock = .locked
      ∧ (inLock .coast 1 true).link.lock = .coast ∧ (inLock .coast 1 true).link.missed = 1
      ∧ (inLock .coast 1 true).tx.cell = none ∧ (inLock .coast 1 true).link.decisionDue = false := by decide +kernel

/-- Each way to lose lock. -/
theorem loses_clock (s : State) (h : s.link.lock = .locked ∨ s.link.lock = .coast) : losesLock .clockLoss .clockLost s :=
  .inl ⟨h, .inr ⟨rfl, rfl⟩⟩

theorem loses_mark (count : Fin 4097) (s : State) (h : s.link.lock = .locked ∨ s.link.lock = .coast) (hc : count.val < 4096) :
    losesLock (.markObserved count) .markMisplaced s :=
  .inl ⟨h, .inl ⟨count, rfl, hc, rfl⟩⟩

/-- LockLossIsReported: each cause at its boundary, a DETACHING station, and a pass in progress. -/
theorem witness_LockLoss :
    let busy := holding [sending .first false 1] (inLock .locked 0 true)
    let leaving := { busy with station := { busy.station with state := .detaching } }
    let lost := inLock .coast 2 true
    (busy.due = [] ∧ passesSound busy ∧ busy.events.nonResultCount < 16 ∧ busy.station.state ≠ .detaching)
      ∧ (leaving.due = [] ∧ passesSound leaving ∧ leaving.station.state = .detaching)
      ∧ (lost.due = [] ∧ passesSound lost)
      ∧ losesLock .clockLoss .clockLost busy ∧ losesLock (.markObserved 4095) .markMisplaced leaving
      ∧ losesLock .missedMark .marksMissed lost := by
  refine ⟨?_, ?_, ?_, loses_clock _ (.inl rfl), loses_mark _ _ (.inl rfl) (by decide), .inr ⟨rfl, by decide, rfl, rfl⟩⟩
  all_goals repeat' apply And.intro
  all_goals decide +kernel

/-- A LOCKED or COAST, attached member with the pass of a record in progress, the cell in slot 15 the last of it or not. -/
def cutting (lock : LockState) (missed : Nat) (r : Record) (ending : Option Ticket) : State :=
  let s := holding [r] (inLock lock missed true)
  { s with tx := { s.tx with cell := some ⟨15, [], ending⟩ } }

/-- A record is the one SENDING. -/
abbrev inPass (r : Record) : Prop :=
  let s := cutting .locked 0 r none
  s.due = [] ∧ s.station.state = .attached
    ∧ s.tx.records.find? (fun q => decide (q.state = .sending)) = some r ∧ r.pass.isSome = true

/-- LockLossCutsThePass: first and retransmission passes, cancelled or not, and with none pending; a mark just before the end of the last
cell of a pass, a third missed mark behind a cell that ends none, and a stopped clock under a last cell. -/
theorem witness_LockLossCuts :
    (inPass (sending .first false 1) ∧ inPass (sending .first true 3) ∧ inPass (sending .retransmission false 1)
        ∧ inPass (sending .retransmission true 1) ∧ inPass { sending .retransmission false 2 with pendingSet := 0 })
      ∧ (let s := cutting .locked 0 (sending .first false 3) (some 60)
        losesLock (.markObserved 4079) .markMisplaced s ∧ beforePassEnd (.markObserved 4079) s
          ∧ losesLock .clockLoss .clockLost s ∧ beforePassEnd .clockLoss s)
      ∧ (let s := cutting .coast 2 (sending .first false 2) none
        losesLock .missedMark .marksMissed s ∧ beforePassEnd .missedMark s) := by
  refine ⟨by decide +kernel, ⟨loses_mark _ _ (.inl rfl) (by decide), ?_, loses_clock _ (.inl rfl), ?_⟩,
    .inr ⟨rfl, by decide, rfl, rfl⟩, ?_⟩
  · intro cell hc _
    obtain rfl : cell = ⟨15, [], some 60⟩ := by simpa [cutting] using hc.symm
    refine ⟨nofun, fun count e => ?_⟩
    cases e
    decide
  · intro cell _ _
    exact ⟨nofun, nofun⟩
  · intro cell hc he
    obtain rfl : cell = ⟨15, [], none⟩ := by simpa [cutting] using hc.symm
    exact absurd he (by decide)

/-- A LOCKED member in a frame whose permission is still to be decided. -/
def deciding : State := { inLock .locked 0 true with link := { (inLock .locked 0 true).link with decisionDue := true } }

/-- R16, R27: slot 0 of that member is received, and the control record is absent. -/
theorem test_slotStart_0_member :
    let s := result (exec (.slotStart 0) deciding)
    s.rx.receiving = some 0 ∧ s.rx.controlRecord = none ∧ s.link.decisionDue = true ∧ s.counters.silentFrames = 0 := by
  decide +kernel

/-- R17, R18, R25: an empty slot 0 is counted, and the frame is silent. -/
theorem test_cellReceived_empty_0 :
    let s := result (exec (.cellReceived (List.replicate 30 0xFF)) (result (exec (.slotStart 0) deciding)))
    s.counters.emptySlots = 1 ∧ s.counters.silentFrames = 1 ∧ s.link.permission = false := by decide +kernel

/-- SlotsWithoutAMessage: slot 0 of a member whose permission is still to be decided, a slot of another, slot 0 of a master, and an owned slot with nothing to send. -/
theorem witness_SlotsWithoutAMessage :
    (startsNow 0 deciding ∧ ¬((0 : Slot).val ≠ 0 ∧ mayDrive 0 deciding) ∧ ¬((0 : Slot).val = 0 ∧ mayDriveControl deciding))
      ∧ (startsNow 2 ownSlots ∧ ¬((2 : Slot).val ≠ 0 ∧ mayDrive 2 ownSlots) ∧ ¬((2 : Slot).val = 0 ∧ mayDriveControl ownSlots))
      ∧ (startsNow 0 ownSlots ∧ ownSlots.station.config.node = some 0 ∧ (0 : Slot).val = 0 ∧ mayDriveControl ownSlots
          ∧ ownSlots.map.content = some (List.replicate 16 0))
      ∧ (startsNow 15 ownSlots ∧ (15 : Slot).val ≠ 0 ∧ mayDrive 15 ownSlots ∧ noneSending ownSlots
          ∧ ownSlots.tx.retryOrder = [] ∧ noneOf .urgent ownSlots ∧ noneOf .routine ownSlots) := by
  refine ⟨by decide +kernel, by decide +kernel, by decide +kernel, by decide +kernel, by decide +kernel, by decide +kernel,
    by decide +kernel, by decide +kernel, ?_, ?_⟩ <;> intro older q younger h <;> exact absurd h (by simp [ownSlots, drivingMaster, running, listening, State.reset, Scheduler.reset])

/-- PassesContinueAndRetransmit: the last cell of a pass, and a retransmission. -/
theorem witness_Passes :
    let going := holding [sending .first false 2] (lockedMember 3 17 [(15, 3)])
    let again := holding [retrying 61 0x024 0x020] (lockedMember 3 17 [(1, 3)])
    (startsNow 15 going ∧ (15 : Slot).val ≠ 0 ∧ mayDrive 15 going ∧ going.station.config.node = some 3
        ∧ going.tx.records.find? (fun q => decide (q.state = .sending)) = some (sending .first false 2)
        ∧ (sending .first false 2).pass = some ⟨.first, 0x024, 2⟩)
      ∧ startsNow 1 again ∧ mayDrive 1 again ∧ again.station.state = .attached ∧ noneSending again
      ∧ again.tx.retryOrder = [61] ∧ named 61 (retrying 61 0x024 0x020) again := by decide +kernel

/-- A queue of one record at a member that owns slot 4. -/
def oneRecord (r : Record) : State := holding [r] (lockedMember 3 17 [(4, 3)])

/-- A lone record that may start is the oldest of its class. -/
theorem oneRecord_oldest (r : Record) (h : mayStart [] r (oneRecord r)) : oldestOf r.cls [] r [] (oneRecord r) :=
  ⟨rfl, rfl, h, fun before q rest e => absurd e (by cases before <;> simp)⟩

/-- FirstPassOfTheOldestEligible: an acknowledged URGENT record, and an unacknowledged ROUTINE one with no URGENT one. -/
theorem witness_FirstPass :
    let urgent := posted 42 .urgent true 0x004 0
    let routine := posted 41 .routine false 0x020 8
    (startsNow 4 (oneRecord urgent) ∧ (4 : Slot).val ≠ 0 ∧ mayDrive 4 (oneRecord urgent)
        ∧ (oneRecord urgent).station.config.node = some 3 ∧ (oneRecord urgent).station.state = .attached
        ∧ noneSending (oneRecord urgent) ∧ (oneRecord urgent).tx.retryOrder = []
        ∧ oldestOf .urgent [] urgent [] (oneRecord urgent) ∧ urgent.ackreq = true)
      ∧ startsNow 4 (oneRecord routine) ∧ mayDrive 4 (oneRecord routine) ∧ noneSending (oneRecord routine)
      ∧ (oneRecord routine).tx.retryOrder = [] ∧ noneOf .urgent (oneRecord routine)
      ∧ oldestOf .routine [] routine [] (oneRecord routine) ∧ routine.ackreq = false := by
  have none_urgent : noneOf .urgent (oneRecord (posted 41 .routine false 0x020 8)) := by
    intro older q younger h hc _
    have hq : q ∈ (oneRecord (posted 41 .routine false 0x020 8)).tx.records := h ▸ by simp
    obtain rfl : q = posted 41 .routine false 0x020 8 := by simpa [oneRecord, holding] using hq
    exact absurd hc (by decide)
  refine ⟨⟨?_, ?_, ?_, ?_, ?_, ?_, ?_, oneRecord_oldest (posted 42 .urgent true 0x004 0) ?_, ?_⟩, ?_, ?_, ?_, ?_, none_urgent,
    oneRecord_oldest (posted 41 .routine false 0x020 8) ?_, ?_⟩ <;> decide +kernel

/-- A member driving the last cell of a record's pass. -/
def lastCell (r : Record) : State :=
  let s := holding [r] (lockedMember 3 17 [(15, 3)])
  { s with tx := { s.tx with cell := some ⟨15, [], some r.ticket⟩ } }

/-- The pass of a record ends with the cell being driven. -/
abbrev ends (r : Record) : Prop :=
  (lastCell r).due = [] ∧ (lastCell r).tx.cell = some ⟨15, [], some r.ticket⟩ ∧ named r.ticket r (lastCell r)

/-- PassEndIsJudged: a cell that ends no pass, and the four ways a pass ends. -/
theorem witness_PassEnd :
    ends { sending .first false 3 with ackreq := false } ∧ ends { sending .retransmission true 3 with pendingSet := 0 }
      ∧ ends (sending .first true 3) ∧ (sending .first true 3).pendingSet ≠ 0 ∧ (sending .first true 3).cancelRequested = true
      ∧ ends (sending .first false 3) := by decide +kernel

/-- OnlyOwnedSlotsAreDriven: a step that begins to drive. -/
theorem witness_OnlyOwnedSlots :
    ∃ t, exec (.slotStart 15) ownSlots = .next t ∧ t.tx.cell ≠ none ∧ t.tx.cell ≠ ownSlots.tx.cell := by
  refine ⟨_, rfl, ?_, ?_⟩ <;> decide +kernel

/-- DrawnNumbersAreClosed: a step that draws a number past one that is open. -/
theorem witness_DrawnNumbers :
    let s := oneRecord (posted 42 .urgent true 0x004 0)
    let s := { s with tx := { s.tx with openSets := s.tx.openSets.set 2 1 } }
    outboundSound s ∧ ∃ t, exec (.slotStart 4) s = .next t ∧
      ∃ r ∈ s.tx.records, ∃ r' ∈ t.tx.records, r'.ticket = r.ticket ∧ r.number = none ∧ r'.number = some 1 := by
  refine ⟨by decide +kernel, _, rfl, ?_⟩; decide +kernel

/-- CellsAreReadBack. -/
theorem witness_CellsAreReadBack :
    (List.replicate 16 (255 : Byte)).length = 16 ∧ pending813.owners.length = 15 ∧ (List.replicate 30 (255 : Byte)).length = 30 := by
  decide +kernel

/-- R23: the statements' own CRC gives the check value. -/
theorem test_crcOf_check_value : crcOf [0x31, 0x32, 0x33, 0x34, 0x35, 0x36, 0x37, 0x38, 0x39] = 0x29B1 := by decide +kernel

/-- SlotsAreJudged: each verdict, and slot 0 with the permission decision open. -/
theorem witness_SlotsAreJudged :
    (ownSlots.due = [] ∧ ownSlots.rx.receiving = none)
      ∧ ((node7 1).due = [] ∧ (node7 1).rx.receiving = some 1)
      ∧ ((receiving 0 deciding).due = [] ∧ (receiving 0 deciding).rx.receiving = some 0 ∧ (receiving 0 deciding).link.decisionDue = true)
      ∧ imageByte (List.replicate 30 0xFF) 0 = 0xFF
      ∧ (imageByte (List.replicate 30 0) 0 ≠ 0xFF ∧ ¬validCell (some 7) 1 (List.replicate 30 0))
      ∧ (validCell (some 7) 6 (encodeCell (fillerOf 11 3)) ∧ (readCell (encodeCell (fillerOf 11 3))).source.toNat = (11 : Node).val
          ∧ ownerChecked 6 (node7 6) ∧ ¬ownedBy 6 11 (node7 6))
      ∧ (goodCell 1 (encodeCell (fillerOf 2 40)) 2 (node7 1) ∧ sameEpoch (readCell (encodeCell (fillerOf 2 40))) 2 (node7 1)
          ∧ ¬notice (readCell (encodeCell (fillerOf 2 40))) (node7 1) ∧ (readCell (encodeCell (fillerOf 2 40))).kind = 1) := by
  repeat' apply And.intro
  all_goals decide +kernel

/-- NewEpochsAreTakenFirst: an epoch replaced, and a first one. -/
theorem witness_NewEpochs :
    (goodCell 1 (encodeCell (fillerOf 2 41)) 2 (node7 1) ∧ ¬sameEpoch (readCell (encodeCell (fillerOf 2 41))) 2 (node7 1)
        ∧ ((node7 1).rx.peers.get 2).epoch = some 40)
      ∧ (let s := receiving 1 (lockedMember 7 17 [(1, 2)])
        goodCell 1 (encodeCell (fillerOf 2 41)) 2 s ∧ ¬sameEpoch (readCell (encodeCell (fillerOf 2 41))) 2 s
          ∧ (s.rx.peers.get 2).epoch = none) := by
  repeat' apply And.intro
  all_goals decide +kernel

/-- A good cell of node 2 at its recorded epoch that carries a notice for node 7. -/
abbrev noticed (image : List Byte) (s : State) : Prop :=
  goodCell 1 image 2 s ∧ sameEpoch (readCell image) 2 s ∧ notice (readCell image) s

/-- NoticesAreAppliedFirst: stale, delivering, leaving nodes pending, and during a pass. -/
theorem witness_Notices :
    let image := acknowledging 2 40 7 7 17
    let matching : Record → Bool := fun r =>
      r.ackreq && decide (begun r) && decide (r.number = some 7) && r.pendingSet.getLsbD (2 : Node).val
    let found (r : Record) : Option Record := (holding [r] (node7 1)).tx.records.find? matching
    (noticed image (node7 1) ∧ (node7 1).tx.records.find? matching = none)
      ∧ (noticed image (holding [awaiting 60 4 4 1 4] (node7 1)) ∧ found (awaiting 60 4 4 1 4) = some (awaiting 60 4 4 1 4))
      ∧ (noticed image (holding [retrying 60 0x024 0x024] (node7 1))
          ∧ found (retrying 60 0x024 0x024) = some (retrying 60 0x024 0x024))
      ∧ (found { sending .retransmission false 2 with pendingSet := 4 }).isSome = true := by
  repeat' apply And.intro
  all_goals decide +kernel

/-- A good DATA cell of node 2 for node 7, of the recorded epoch, without a notice. -/
abbrev dataHeard (first : Bool) (image : List Byte) (s : State) : Prop :=
  goodCell 1 image 2 s ∧ sameEpoch (readCell image) 2 s ∧ ¬notice (readCell image) s ∧ dataForUs (readCell image) s
    ∧ (readCell image).first = first

/-- A later cell agrees with a context. -/
abbrev fits (image : List Byte) (a : Assembly) : Prop :=
  let c := readCell image
  c.index.toNat = a.nextIndex ∧ c.total.toNat = a.total ∧ c.ackreq = a.ackreq ∧ c.number = a.number ∧ c.tag = a.tag

/-- FirstCellsStartMessages: in IDLE and not; repeated; without room; and complete in one cell. -/
theorem witness_FirstCells :
    let full := { node7 1 with rx := { (node7 1).rx with freeBlocks := 1 } }
    dataHeard true (dataCell true false true 0 4 128) (node7 1) ∧ (node7 1).rx.contexts.get 2 = .idle ∧ roomFor 128 (node7 1)
      ∧ dataHeard true (dataCell true true true 0 3 0) (node7 1) ∧ ((node7 1).rx.peers.get 2).lastAccepted = some 3
      ∧ dataHeard true (dataCell true false false 0 0 17) full ∧ ¬roomFor 17 full ∧ roomFor 16 full
      ∧ dataHeard true (dataCell true true false 0 0 16) full
      ∧ dataHeard true (dataCell true true false 0 0 16) (node7With (.discarding 15))
      ∧ (node7With (.discarding 15)).rx.contexts.get 2 ≠ .idle := by
  repeat' apply And.intro
  all_goals decide +kernel

/-- LaterCellsContinueMessages: in each state of the context, fitting or not, and completing. -/
theorem witness_LaterCells :
    let a33 : Assembly := { assembly20 with total := 33 }
    let acked : Assembly := { assembly20 with ackreq := true, number := 4 }
    dataHeard false (dataCell false true false 1 0 20) (node7 1) ∧ (node7 1).rx.contexts.get 2 = .idle
      ∧ dataHeard false (dataCell false true false 1 0 20) (node7With (.discarding 0))
      ∧ (dataHeard false (dataCell false true false 1 0 20) (node7With (.assembling assembly20))
          ∧ fits (dataCell false true false 1 0 20) assembly20 ∧ (readCell (dataCell false true false 1 0 20)).last = true)
      ∧ (dataHeard false (dataCell false true true 1 4 20) (node7With (.assembling acked)) ∧ fits (dataCell false true true 1 4 20) acked)
      ∧ (dataHeard false (dataCell false false false 1 0 33) (node7With (.assembling a33)) ∧ fits (dataCell false false false 1 0 33) a33
          ∧ (readCell (dataCell false false false 1 0 33)).last = false)
      ∧ ¬fits (dataCell false true false 2 0 33) a33 ∧ dataHeard false (dataCell false true false 2 0 33) (node7With (.assembling a33)) := by
  repeat' apply And.intro
  all_goals decide +kernel

/-- A member at node 4 that receives slot 0, the master's epoch known. -/
def hearing (s : State) : State := receiving 0 (knowing s)

/-- ControlCellsAreHeard: usable and unusable content, of a known epoch and without a notice. -/
theorem witness_ControlCells :
    let s := hearing (inLock .verify 0 false)
    let bad := { content813 6 with rate := 4 }
    (goodCell 0 (controlCell (content813 6)) 0 s ∧ (readCell (controlCell (content813 6))).kind = 3
        ∧ s.station.config.role = .member)
      ∧ goodCell 0 (controlCell bad) 0 s ∧ unusable (readContent (readCell (controlCell bad)).payload)
      ∧ sameEpoch (readCell (controlCell bad)) 0 s ∧ ¬notice (readCell (controlCell bad)) s := by
  repeat' apply And.intro
  all_goals decide +kernel

/-- Usable content heard by the locked member 4. -/
abbrev followed (c : ControlContent) : Prop :=
  let s := hearing (inLock .locked 0 true)
  goodCell 0 (controlCell c) 0 s ∧ (readCell (controlCell c)).kind = 3 ∧ s.station.config.role = .member
    ∧ sameEpoch (readCell (controlCell c)) 0 s ∧ ¬notice (readCell (controlCell c)) s
    ∧ ¬unusable (readContent (readCell (controlCell c)).payload)

/-- MembersFollowTheMap: the current map of the same and of another generation, a pending map given up or kept, and one stored. -/
theorem witness_MembersFollow :
    let s := hearing (inLock .locked 0 true)
    let kept : ControlContent := { content813 6 with pendingExists := true, effective := 1068 }
    (followed (content813 6) ∧ generationOf s = some 6 ∧ givesUp (content813 6) ⟨map6 [], 818⟩)
      ∧ (followed (content813 7) ∧ generationOf s ≠ some 7)
      ∧ (followed kept ∧ ¬givesUp kept ⟨map6 [], 1068⟩ ∧ givesUp kept ⟨map6 [], 818⟩)
      ∧ followed pending813 ∧ pending813.carriesPending = true := by
  repeat' apply And.intro
  all_goals decide +kernel

/-- PermissionIsDecidedAfterSlotZero. -/
theorem witness_Permission :
    let s := hearing { inLock .locked 0 true with link := { (inLock .locked 0 true).link with decisionDue := true } }
    s.due = [] ∧ s.rx.receiving = some 0 ∧ (0 : Slot).val = 0 ∧ s.link.decisionDue = true := by decide +kernel

/-- BoundaryTimersRunOut: EXPIRED, the last permitted retry, FAILED, PARTIAL, and both kinds of context. -/
theorem witness_BoundaryTimers :
    let expiring := owingWork [.lifetime 41] (holding [posted 41 .routine false 2 8] (lockedMember 3 17 []))
    let timed (r : Record) : State := owingWork [.ackTimer 60] (holding [r] (lockedMember 3 17 []))
    (Work.lifetime 41 ∈ expiring.due ∧ named 41 (posted 41 .routine false 2 8) expiring)
      ∧ (named 60 (awaiting 60 0x024 0x020 3 0) (timed (awaiting 60 0x024 0x020 3 0))
          ∧ 3 ≤ (timed (awaiting 60 0x024 0x020 3 0)).station.config.retryLimit)
      ∧ (named 60 (awaiting 60 0x024 0x024 4 0) (timed (awaiting 60 0x024 0x024 4 0))
          ∧ (timed (awaiting 60 0x024 0x024 4 0)).station.config.retryLimit < 4)
      ∧ named 60 (awaiting 60 0x024 0x020 4 0) (timed (awaiting 60 0x024 0x020 4 0))
      ∧ Work.reassembly 2 ∈ (owingWork [.reassembly 2] (node7With (.discarding 16))).due
      ∧ gone16 (.discarding 16) ∧ gone16 (.assembling { assembly20 with frames := 16 }) := by
  refine ⟨?_, ?_, ?_, ?_, ?_, by unfold gone16; decide, by unfold gone16; decide⟩ <;> decide +kernel

/-- MapSwitchesAtItsEffectiveFrame: on a master and on a member. -/
theorem witness_MapSwitch :
    let p : PendingMap := ⟨map6 [], 1000⟩
    let m := owingWork [.mapSwitch] { ownSlots with map := { ownSlots.map with pendingMap := some p } }
    Work.mapSwitch ∈ m.due ∧ m.map.pendingMap = some p ∧ m.station.config.role = .master
      ∧ (inLock .locked 0 true).station.config.role = .member := by decide +kernel

/-- DetachCompletionInItsStages: on a master and on a member. -/
theorem witness_DetachCompletion :
    (Work.completion ∈ (owingWork [.completion] ownSlots).due ∧ (owingWork [.completion] ownSlots).schedulerBegun = false)
      ∧ Work.completion ∈ (owingWork [.completion, .mapSwitch] (inLock .coast 1 true)).due
      ∧ Work.completion ∈ halfExpired.due ∧ halfExpired.schedulerBegun = true ∧ ∃ w ∈ halfExpired.due, ofTransmitScheduler w :=
  ⟨by decide +kernel, by decide +kernel, by decide +kernel, rfl, .lifetime 42, by decide +kernel, .inl ⟨42, rfl⟩⟩

/-- OutboundLawsAreKept and EveryRecordEndsInOneResult: a queue with records in all four states. -/
def busyQueue : State :=
  holding [sending .first false 1, awaiting 61 0x100 0x100 1 4, retrying 62 0x400 0x400, posted 63 .urgent true 0x024 128]
    (lockedMember 3 17 [(4, 3)])

theorem witness_OutboundLaws : outboundSound busyQueue ∧ ∃ t, exec (.slotStart 4) busyQueue = .next t :=
  ⟨by decide +kernel, _, rfl⟩

/-- InboundLawsAreKept: a context, an entry and an owed acknowledgement. -/
theorem witness_InboundLaws :
    let e : Entry := { source := 2, tag := 9, payload := message 128, ackreq := true, lostBefore := 0, frame := 3001 }
    let s := node7With (.assembling assembly20)
    let s := { s with rx := { s.rx with mailbox := [e], freeBlocks := 86, owed := [⟨2, 3, 40⟩, ⟨5, 1, 9⟩] } }
    receiveAccounts s ∧ ∃ t, exec (.cellReceived (dataCell false true false 1 0 20)) s = .next t :=
  ⟨by decide +kernel, _, rfl⟩

/-- StationAndLinkAgree: a master, members in each lock state, a detached part and a held one. -/
theorem witness_StationAndLink :
    stationLinkSound ownSlots ∧ stationLinkSound (inLock .verify 0 true) ∧ stationLinkSound (inLock .locked 0 true)
      ∧ stationLinkSound (inLock .coast 2 true) ∧ stationLinkSound restingMaster
      ∧ stationLinkSound (result (exec .pinResetAssert ownSlots)) ∧ stationLinkSound fullAndDetaching ∧ stationLinkSound halfExpired
      ∧ ∃ t, exec .clockLoss (inLock .locked 0 true) = .next t :=
  ⟨by decide +kernel, by decide +kernel, by decide +kernel, by decide +kernel, by decide +kernel, by decide +kernel, by decide +kernel, by decide +kernel, _, rfl⟩

/-- HostLineStaysSound: with a request waiting and a frame in progress whose last character is to come. -/
theorem witness_HostLine :
    hostSound (replying false (some ⟨2, 22, []⟩) running)
      ∧ hostSound { running with host := { running.host with receive := .inFrame (250 :: message 251) } }
      ∧ ∃ t, exec .replyTransmissionEnd (replying false (some ⟨2, 22, []⟩) running) = .next t :=
  ⟨by decide +kernel, by decide +kernel, _, rfl⟩

/-- EveryRecordEndsInOneResult: a cancel that ends a record, while the reply of a RESET is being transmitted among others. -/
theorem witness_EveryRecordEnds :
    queueAccounts busyQueue ∧ (∃ t, exec (.cancel 1 [0, 61]) busyQueue = .next t ∧ t.tx.records.length = 3)
      ∧ (∀ straps, Instr.cancel 1 [0, 61] ≠ .pinResetRelease straps) ∧ busyQueue.host.sending = none
      ∧ queueAccounts (replying true none busyQueue) ∧ Instr.slotStart 4 ≠ .resetTakesEffect
      ∧ Instr.slotStart 4 ≠ .replyTransmissionEnd := by
  refine ⟨by decide +kernel, ⟨_, rfl, by decide +kernel⟩, by decide +kernel, by decide +kernel, by decide +kernel,
    by decide +kernel, by decide +kernel⟩

end Sys2Proof.Tests
end

section
/-! From the image of a good cell to the hand-off of its fields, and what a member's Map Unit makes of a control cell's
content (R24 to R30, R44 to R47). -/
namespace Sys2Proof.Machine

open Sys2Proof.Claims

/-! ## The checks that a good cell passes -/

theorem hiNibble_hiByte_eq_zero_iff (d : Half) : hiNibble (hiByte d) = 0 ↔ d.toNat < 4096 := by
  have hd := d.isLt
  rw [← BitVec.toNat_inj]
  simp only [hiNibble, hiByte, BitVec.extractLsb'_toNat, Nat.shiftRight_eq_div_pow, BitVec.ofNat_eq_ofNat, BitVec.toNat_ofNat]
  omega

theorem cells_pos (n : Nat) : 0 < cells n := by
  unfold cells blocks
  split <;> [omega; (split <;> omega)]

/-- R26: the checks on an image, as the rule states them. -/
theorem validImage_iff (own : Option Node) (slot : Slot) (image : List Byte) :
    validImage own slot image = true ↔ validCell own slot image := by
  generalize hc : readCell image = c
  have hkind : (c.kind == kindFiller || c.kind == kindData || c.kind == kindControl) = true
      ↔ (c.kind = 1 ∨ c.kind = 2 ∨ c.kind = 3) := by
    rw [Bool.or_eq_true, Bool.or_eq_true, beq_iff_eq, beq_iff_eq, beq_iff_eq, or_assoc]
    rfl
  have hsource (rest : Prop) : ((nodeOf? c.source.toNat).isSome = true ∧ nodeOf? c.source.toNat ≠ own ∧ rest)
      ↔ (c.source.toNat < 12 ∧ (∀ n ∈ own, c.source.toNat ≠ n.val) ∧ rest) := by
    rw [nodeOf?_isSome]
    refine and_congr_right fun hlt => and_congr_left fun _ => ?_
    rcases own with _ | n
    · simp [Option.ne_none_iff_isSome, nodeOf?_isSome, hlt]
    · simp [nodeOf?_eq_some]
  have hfirst : (c.first == (c.index == 0)) = true ↔ (c.first = true ↔ c.index.toNat = 0) := by
    rw [beq_iff_eq, Bool.eq_iff_iff, beq_iff_eq, ← BitVec.toNat_inj]
    rfl
  have hlast : (c.last == (c.index.toNat + 1 == cellCount c.total.toNat)) = true
      ↔ (c.last = true ↔ c.index.toNat = cells c.total.toNat - 1) := by
    have := cells_pos c.total.toNat
    rw [beq_iff_eq, Bool.eq_iff_iff, beq_iff_eq, cellCount_eq_cells]
    refine iff_congr Iff.rfl ?_
    omega
  have hslot : ((c.kind == kindControl) == (slot.val == 0)) = true ↔ (c.kind = 3 ↔ slot.val = 0) := by
    rw [beq_iff_eq, Bool.eq_iff_iff, beq_iff_eq, beq_iff_eq]
    rfl
  unfold validImage validCell
  rw [hc]
  simp only [Bool.and_eq_true, hkind, hslot, hfirst, hlast, and_assoc]
  simp only [beq_iff_eq, bne_iff_ne, decide_eq_true_iff, hsource, hiNibble_hiByte_eq_zero_iff]

/-- R28, R34: a slot with an owner check belongs to the node that the active map names. -/
theorem slotOwner_eq_some {slot : Slot} (h0 : slot.val ≠ 0) {n : Node} {s : State} :
    slotOwner slot s = some n ↔ ownedBy slot n s := by
  unfold slotOwner ownedBy
  rcases s.map.active with _ | m
  · simp
  · simp [h0, ownerAt_eq_some]

/-- R28: when a valid cell is foreign. -/
theorem isForeign_eq_false_iff (slot : Slot) (n : Node) (s : State) :
    isForeign slot n s = false ↔ (ownerChecked slot s → ownedBy slot n s) := by
  unfold isForeign
  rw [← checksOwner_iff]
  by_cases hc : checksOwner slot s = true
  · have h0 : slot.val ≠ 0 := ((checksOwner_iff slot s).1 hc).1
    simp [hc, slotOwner_eq_some h0]
  · simp [hc]

/-- `s` at the end of a slot's image: the reception is over and the count stands at the end of a cell (R3, R24). -/
def sampled (slot : Slot) (s : State) : State :=
  { s with
    rx.receiving := none
    link.position := some (256 * slot.val + 240) }

/-- R24 to R29: a good cell is handed off, and after slot 0's the permission decision is made. -/
theorem exec_of_goodCell {slot : Slot} {image : List Byte} {src : Node} {s : State} (h : goodCell slot image src s) :
    exec (.cellReceived image) s = .next (decided slot (handOff src (readCell image) (sampled slot s))) := by
  obtain ⟨hdue, hreceiving, hslot, hvalid, hsource, howner⟩ := h
  have hempty : isEmptySlot image = false := by simpa [isEmptySlot] using hslot
  have hjudged (u : State) (hu : u.station = s.station) (hf : isForeign slot src u = false) :
      judgeImage slot image u = handOff src (readCell image) u := by
    have hv : validImage u.station.config.node slot image = true := hu ▸ (validImage_iff _ slot image).2 hvalid
    simp [judgeImage, hempty, hv, nodeOf?_eq_some.2 hsource, hf]
  change execCellReceived image s = _
  unfold execCellReceived finishSlot
  rw [settle_of_due_nil hdue]
  simp only [hreceiving, decidePermission_eq_decided]
  rw [hjudged]
  · rfl
  · rfl
  · exact (isForeign_eq_false_iff _ _ _).2 howner

/-! ## The hand-off -/

/-- R30: with its source's epoch recorded and no notice in it, a control cell on a member goes straight to the control step. -/
theorem handOff_control {src : Node} {c : Cell} {s : State} (hkind : c.kind = 3) (hrole : s.station.config.role = .member)
    (hepoch : sameEpoch c src s) (hnotice : ¬notice c s) :
    handOff src c s = controlStep src c { s with counters.good := up s.counters.good } := by
  have hstep : epochStep src c.epoch { s with counters.good := up s.counters.good }
      = { s with counters.good := up s.counters.good } := by
    rcases epochStep_cases src c.epoch { s with counters.good := up s.counters.good } with ⟨-, e⟩ | ⟨hne, -⟩
    · exact e
    · exact absurd hepoch hne
  have hn : carriesNotice c { s with counters.good := up s.counters.good } = false := by
    rw [Bool.eq_false_iff, Ne, carriesNotice_iff]
    exact hnotice
  unfold handOff
  simp only [bump_eq_up, hstep, hn, hkind, kindControl, hrole, if_true, Bool.false_eq_true, if_false]

/-- `s` with a good control cell heard in a slot and not yet followed by the Map Unit: the control record, the frame number and the
control-cell flag are written (R7, R9, R30). -/
def heardControl (slot : Slot) (c : ControlContent) (s : State) : State :=
  { heard slot s with
    rx.controlRecord := some c.current
    link.frame := c.frame
    link.controlFlag := true }

theorem heardControl_frame (slot : Slot) (c : ControlContent) (s : State) :
    (heardControl slot c s).map = s.map ∧ (heardControl slot c s).events = s.events
      ∧ (heardControl slot c s).link.frame = c.frame
      ∧ (heardControl slot c s).counters.eventsLost = s.counters.eventsLost := ⟨rfl, rfl, rfl, rfl⟩

/-- A good control cell on a member, with its source's epoch recorded and no notice in it, is followed by the
Map Unit from `heardControl` (R29, R30). -/
theorem exec_controlCell {slot : Slot} {image : List Byte} {src : Node} {s : State} (h : goodCell slot image src s)
    (hkind : (readCell image).kind = 3) (hrole : s.station.config.role = .member) (hepoch : sameEpoch (readCell image) src s)
    (hnotice : ¬notice (readCell image) s) :
    let c := readContent (readCell image).payload
    exec (.cellReceived image) s = .next (decided slot (followMap src c (heardControl slot c s))) := by
  intro c
  rw [exec_of_goodCell h, handOff_control (s := sampled slot s) hkind hrole hepoch hnotice]
  rfl

/-- R17, R18: the permission decision leaves the maps and the events alone. -/
theorem decided_frame (slot : Slot) (s : State) :
    (decided slot s).map = s.map ∧ (decided slot s).events = s.events
      ∧ (decided slot s).counters.eventsLost = s.counters.eventsLost := by
  unfold decided
  split <;> simp

/-! ## Offering an event -/

@[simp] theorem offered_map (k : EventKind) (s : State) : (offered k s).map = s.map := by
  simp [← offerEvent_eq_offered]

/-- R120, R121: what stands in the event queue after an offer rests on the queue and the frame number alone. -/
theorem offered_events_congr (k : EventKind) {s t : State} (he : s.events = t.events) (hf : s.link.frame = t.link.frame) :
    (offered k s).events = (offered k t).events := by
  unfold offered placed
  rw [he, hf]
  split <;> rfl

/-- R121: the events lost after an offer rest on the queue and the earlier count alone. -/
theorem offered_eventsLost_congr (k : EventKind) {s t : State} (he : s.events = t.events)
    (hc : s.counters.eventsLost = t.counters.eventsLost) :
    (offered k s).counters.eventsLost = (offered k t).counters.eventsLost := by
  unfold offered placed
  rw [he]
  split <;> simp [hc]

/-! ## Following the map -/

/-- R44: an owner code that content may carry is the code of the owner it stands for. -/
theorem ownerCode_ownerOf {n : Nibble} (h : ¬(n = 12 ∨ n = 13 ∨ n = 14)) : ownerCode (ownerOf n) = n.toNat := by
  revert n
  decide

/-- R44: the map that a member makes of usable content is the one the content carries. -/
theorem carries_ownersOf {c : ControlContent} (h : ¬unusable c) :
    carries c { owners := ownersOf c.owners, generation := c.generation } := by
  refine ⟨rfl, fun k => ?_⟩
  have hcode : ∀ n ∈ c.owners, ¬(n = 12 ∨ n = 13 ∨ n = 14) := fun n hn hbad => h (.inl ⟨n, hn, hbad⟩)
  have hk : ¬(c.owners.getD k.val 15 = 12 ∨ c.owners.getD k.val 15 = 13 ∨ c.owners.getD k.val 15 = 14) := by
    rw [List.getD_eq_getElem?_getD]
    rcases e : c.owners[k.val]? with _ | n
    · decide
    · exact hcode n (List.mem_of_getElem? e)
  have hget : (ownersOf c.owners).get k = ownerOf (c.owners.getD k.val 15) := by
    simp [ownersOf, Vector.get_eq_getElem]
  rw [hget, ownerCode_ownerOf hk]

/-- R45: when a pending map is given up. -/
theorem dropsPending_iff (c : ControlContent) (p : PendingMap) : dropsPending c p = true ↔ givesUp c p := by
  unfold dropsPending givesUp framesAhead
  simp only [Bool.or_eq_true, Bool.not_eq_true', bne_iff_ne, Bool.and_eq_false_iff, decide_eq_false_iff_not, Nat.not_le, or_assoc]

/-- R45: the pending map that content leaves a member. -/
theorem dropPending_eq (c : ControlContent) (s : State) :
    dropPending c s = { s with map.pendingMap := s.map.pendingMap.filter fun p => !dropsPending c p } := by
  have hkeep (h : (s.map.pendingMap.filter fun p => !dropsPending c p) = s.map.pendingMap) :
      s = { s with map.pendingMap := s.map.pendingMap.filter fun p => !dropsPending c p } := by rw [h]
  unfold dropPending
  split
  · next e => exact hkeep (by rw [e]; rfl)
  · next p e =>
    cases hd : dropsPending c p
    · exact hkeep (by rw [e]; simp [hd])
    · simp [e, hd, Option.filter]

/-- R46: a carried current map is the member's own, or is adopted with MAP_RESYNC. -/
theorem adoptMap_cases (c : ControlContent) (s : State) :
    (generationOf s = some c.generation ∧ adoptMap c s = s)
      ∨ (generationOf s ≠ some c.generation
          ∧ adoptMap c s = offered (.mapResync (generationOf s) c.generation)
              { s with map.active := some { owners := ownersOf c.owners, generation := c.generation } }) := by
  unfold adoptMap
  rw [offerEvent_eq_offered]
  by_cases h : generationOf s = some c.generation
  · exact .inl ⟨h, if_pos h⟩
  · exact .inr ⟨h, if_neg h⟩

/-- `s` with the master node learned from a control cell, and without a pending map that its content no longer announces (R44,
R45). -/
def pendingJudged (n : Node) (c : ControlContent) (s : State) : State :=
  { s with
    map.masterNode := some n
    map.pendingMap := s.map.pendingMap.filter fun p => !dropsPending c p }

/-- R46: an adoption leaves the pending map and the frame generation (R35). -/
theorem adoptMap_keeps (c : ControlContent) (s : State) :
    (adoptMap c s).map.pendingMap = s.map.pendingMap ∧ (adoptMap c s).map.frameGeneration = s.map.frameGeneration := by
  rcases adoptMap_cases c s with ⟨-, e⟩ | ⟨-, e⟩ <;> simp [e]

/-- R45, R46: usable content with the current map. -/
theorem followMap_current {c : ControlContent} (hu : ¬unusable c) (hp : c.carriesPending = false) (n : Node) (s : State) :
    followMap n c s
      = { adoptMap c (pendingJudged n c s) with map.masterRate := some (c.rate.setWidth 2) } := by
  simp [followMap, (usableContent_iff c).2 hu, hp, dropPending_eq, pendingJudged]

/-- R47: usable content with the pending map. -/
theorem followMap_pending {c : ControlContent} (hu : ¬unusable c) (hp : c.carriesPending = true) (n : Node) (s : State) :
    followMap n c s
      = { s with
          map.masterNode := some n
          map.pendingMap :=
            some { map := { owners := ownersOf c.owners, generation := c.generation }, effective := c.effective }
          map.masterRate := some (c.rate.setWidth 2) } := by
  simp [followMap, (usableContent_iff c).2 hu, hp, dropPending_eq, storePending]

/-- R44: the rate code of usable content fits the two bits that are kept of it. -/
theorem rate_toNat_of_usable {c : ControlContent} (h : ¬unusable c) : (c.rate.setWidth 2).toNat = c.rate.toNat := by
  have hrate : c.rate.toNat ≤ 3 := Nat.not_lt.1 fun hlt => h (.inr (.inl hlt))
  rw [BitVec.toNat_setWidth]
  omega

/-! ## What usable content leaves in the Map Unit and the Event Queue -/

/-- Usable content leaves the rate code it carries and the frame generation as it was, whichever map it carries (R35, R44). -/
theorem followMap_usable_keeps {c : ControlContent} (hu : ¬unusable c) (n : Node) (s : State) :
    (followMap n c s).map.masterRate = some (c.rate.setWidth 2)
      ∧ (followMap n c s).map.frameGeneration = s.map.frameGeneration := by
  rcases hp : c.carriesPending with _ | _
  · rw [followMap_current hu hp]
    exact ⟨rfl, (adoptMap_keeps c (pendingJudged n c s)).2⟩
  · rw [followMap_pending hu hp]
    exact ⟨rfl, rfl⟩

/-- R45: with the current map carried, the pending map stays exactly if it is not given up. -/
theorem followMap_current_pendingMap {c : ControlContent} (hu : ¬unusable c) (hp : c.carriesPending = false) (n : Node)
    (s : State) : (followMap n c s).map.pendingMap = s.map.pendingMap.filter fun p => !dropsPending c p := by
  rw [followMap_current hu hp]
  exact (adoptMap_keeps c (pendingJudged n c s)).1

/-- R46: a carried current map of the member's own generation changes neither the active map nor the events. -/
theorem followMap_current_same {c : ControlContent} (hu : ¬unusable c) (hp : c.carriesPending = false) (n : Node) {s : State}
    (hg : generationOf s = some c.generation) :
    (followMap n c s).map.active = s.map.active ∧ (followMap n c s).events = s.events
      ∧ (followMap n c s).counters.eventsLost = s.counters.eventsLost := by
  rw [followMap_current hu hp]
  rcases adoptMap_cases c (pendingJudged n c s) with ⟨-, e⟩ | ⟨hne, -⟩
  · rw [e]
    exact ⟨rfl, rfl, rfl⟩
  · exact absurd hg hne

/-- R46: a carried current map of another generation is adopted, and MAP_RESYNC is offered. -/
theorem followMap_current_other {c : ControlContent} (hu : ¬unusable c) (hp : c.carriesPending = false) (n : Node) {s : State}
    (hg : generationOf s ≠ some c.generation) :
    (followMap n c s).map.active = some { owners := ownersOf c.owners, generation := c.generation }
      ∧ (followMap n c s).events = (offered (.mapResync (generationOf s) c.generation) s).events
      ∧ (followMap n c s).counters.eventsLost
          = (offered (.mapResync (generationOf s) c.generation) s).counters.eventsLost := by
  rw [followMap_current hu hp]
  rcases adoptMap_cases c (pendingJudged n c s) with ⟨hsame, -⟩ | ⟨-, e⟩
  · exact absurd hsame hg
  · rw [e]
    exact ⟨by simp [pendingJudged], offered_events_congr _ rfl rfl, offered_eventsLost_congr _ rfl rfl⟩

/-- Settles O51: the cell reaches the Map Unit (`exec_controlCell`), whose cases are those of the map carried. -/
theorem membersFollowTheMap : Obligations.MembersFollowTheMap := by
  intro slot image src s hgood hkind hrole hepoch hnotice c hu
  refine ⟨_, exec_controlCell hgood hkind hrole hepoch hnotice, ?_⟩
  obtain ⟨hmap, hevents, hframe, hlost⟩ := heardControl_frame slot c s
  generalize heardControl slot c s = h at hmap hevents hframe hlost ⊢
  have hgen : generationOf h = generationOf s := by simp only [generationOf, hmap]
  obtain ⟨dmap, devents, dlost⟩ := decided_frame slot (followMap src c h)
  obtain ⟨hrate, hfg⟩ := followMap_usable_keeps hu src h
  rw [dmap, devents, dlost]
  refine ⟨⟨_, hrate, rate_toNat_of_usable hu⟩, by rw [hfg, hmap], fun hp => ⟨?pending, fun hg => ?same, fun hg => ?other⟩,
    fun hp => ?stored⟩
  case pending =>
    rw [followMap_current_pendingMap hu hp, hmap]
    rcases s.map.pendingMap with _ | p
    · rfl
    · by_cases hgive : givesUp c p
      · simp [(dropsPending_iff c p).2 hgive, hgive, Option.filter]
      · simp [Bool.eq_false_iff.2 (mt (dropsPending_iff c p).1 hgive), hgive, Option.filter]
  case same =>
    rw [← hmap, ← hevents, ← hlost]
    exact followMap_current_same hu hp src (hgen.trans hg)
  case other =>
    obtain ⟨hactive, hev, hcount⟩ := followMap_current_other hu hp src (hgen ▸ hg)
    rw [hgen] at hev hcount
    exact ⟨⟨_, hactive, carries_ownersOf hu⟩, hev.trans (offered_events_congr _ hevents hframe),
      hcount.trans (offered_eventsLost_congr _ hevents hlost)⟩
  case stored =>
    rw [followMap_pending hu hp]
    exact ⟨(congrArg MapUnit.active hmap :), hevents, hlost, _, rfl, rfl, carries_ownersOf hu⟩

end Sys2Proof.Machine
end

section
/-! The next state of a request executed now, in terms of the answer it is given (R134, R140, R141). -/
namespace Sys2Proof.Machine

open Sys2Proof.Claims

theorem requestOf_command (k : RequestKind) (seq : Byte) (params : List Byte) :
    requestOf (command k seq params) = some { kind := k.code, seq := seq, params := params } := by cases k <;> rfl

/-- A request executed now, with the answer that R140 comes to: the effects stand and the reply is kept and begun (R134).  The
judgement sees the Host Port with the request's frame closed. -/
theorem exec_judged {c : Instr} {r : HostRequest} {s : State} (h : requestOf c = some r) (hn : executesNow r.seq s)
    {status : Status} {data : List Byte} {u : State}
    (hj : judgeRequest r { s with host.receive := .idle } = (status, data, { u with host.receive := .idle }))
    (hu : u.host = s.host) (hreset : r.kind ≠ RequestKind.reset.code ∨ status ≠ .ok) :
    exec c s = .next (answered (r.kind + 0x80) r.seq status data u) := by
  have hresets : (r.kind == RequestKind.reset.code && status == .ok) = false := by
    rw [Bool.and_eq_false_iff, beq_eq_false_iff_ne, beq_eq_false_iff_ne]
    exact hreset
  rw [exec_of_executesNow h hn, executeRequest, hj]
  obtain ⟨-, -, -, hwaiting, -⟩ := hn
  simp [replyTo, beginReply, answered, answeredWith, hresets, hu, hwaiting]

/-- A request that the station state or the role turns away changes nothing but the Host Port (R140, R141). -/
theorem exec_turnedAway {k : RequestKind} {seq : Byte} {params : List Byte} {status : Status} {s : State}
    (hn : executesNow seq s) (hl : lengthFits k (params.length + 2))
    (ht : turnedAway k s.station.state s.station.config.role = some status) (hs : status ≠ .ok) :
    exec (command k seq params) s = .next (answered (k.code + 0x80) seq status [] s) := by
  refine exec_judged (requestOf_command k seq params) hn ?_ rfl (.inr hs)
  simp [judgeRequest, requestKind?_code, (lengthSuits_iff _ _).2 hl, stateCheck_eq_turnedAway, ht, refuse]

/-- A request other than RESET that passes the general checks is answered as the rule of its kind answers it (R140). -/
theorem exec_performed {k : RequestKind} {seq : Byte} {params : List Byte} {s : State} (hk : k ≠ .reset)
    (hn : executesNow seq s) (hl : lengthFits k (params.length + 2))
    (ht : turnedAway k s.station.state s.station.config.role = none) {status : Status} {data : List Byte} {u : State}
    (hp : performRequest k params { s with host.receive := .idle } = (status, data, { u with host.receive := .idle }))
    (hu : u.host = s.host) :
    exec (command k seq params) s = .next (answered (k.code + 0x80) seq status data u) := by
  have hcode : k.code ≠ RequestKind.reset.code := by
    revert hk
    cases k <;> decide
  refine exec_judged (requestOf_command k seq params) hn ?_ hu (.inl hcode)
  simpa [judgeRequest, requestKind?_code, (lengthSuits_iff _ _).2 hl, stateCheck_eq_turnedAway, ht] using hp

end Sys2Proof.Machine
end

section
/-! SEND (R57 to R59): what its operand stands for, its checks in their order, and the search for a free ticket. -/
namespace Sys2Proof.Machine

open Sys2Proof.Claims

/-! ## The operand -/

/-- The class that a SEND's class byte names (R150). -/
def classOf (code : Byte) : Option MsgClass :=
  if code = 0 then some .routine else if code = 1 then some .urgent else none

/-- R150: the parameters of a SEND, byte by byte. -/
theorem sendOperand_fixed (code options destHi destLo tag lifeHi lifeLo : Byte) (payload : List Byte) :
    sendOperand ([code, options, destHi, destLo, tag, lifeHi, lifeLo] ++ payload)
      = { cls := classOf code, ackreq := options.getLsbD 0, dest := destHi ++ destLo, tag := tag,
          lifetime := lifeHi ++ lifeLo, payload := payload } := rfl

theorem classOf_eq_none {code : Byte} (h : 1 < code.toNat) : classOf code = none := by
  have h0 : code ≠ 0 := by rintro rfl; simp at h
  have h1 : code ≠ 1 := by rintro rfl; simp at h
  rw [classOf, if_neg h0, if_neg h1]

theorem classOf_eq_some {code : Byte} {cls : MsgClass}
    (h : (code.toNat = 0 ∧ cls = .routine) ∨ (code.toNat = 1 ∧ cls = .urgent)) : classOf code = some cls := by
  rcases h with ⟨hc, rfl⟩ | ⟨hc, rfl⟩
  · rw [BitVec.eq_of_toNat_eq (y := 0#8) hc]; rfl
  · rw [BitVec.eq_of_toNat_eq (y := 1#8) hc]; rfl

theorem exists_classOf {code : Byte} (h : code.toNat ≤ 1) : ∃ cls, classOf code = some cls := by
  rcases Nat.le_one_iff_eq_zero_or_eq_one.1 h with h | h
  · exact ⟨_, classOf_eq_some (.inl ⟨h, rfl⟩)⟩
  · exact ⟨_, classOf_eq_some (.inr ⟨h, rfl⟩)⟩

/-- R57, R150: a destination set names some node, none above 11 and not the own one. -/
theorem goodDestination_iff (dest : Half) (s : State) :
    goodDestination dest s = true
      ↔ dest.toNat ≠ 0 ∧ dest.toNat < 4096 ∧ ∀ n, s.station.config.node = some n → dest.getLsbD n.val = false := by
  have hzero : dest ≠ 0 ↔ dest.toNat ≠ 0 := not_congr BitVec.toNat_inj.symm
  unfold goodDestination
  rw [Bool.and_eq_true, Bool.and_eq_true, bne_iff_ne, beq_iff_eq, hiNibble_hiByte_eq_zero_iff, hzero, and_assoc]
  rcases s.station.config.node with _ | n <;> simp

/-! ## The checks -/

/-- R118: the places that the statements count are those the part counts. -/
theorem resultTickets_length (s : State) : (resultTickets s.events.records).length = resultCount s := by
  unfold resultTickets resultCount
  induction s.events.records with
  | nil => rfl
  | cons e rest ih => cases h : e.kind <;> simp [h, EventKind.isResult, ih]

/-- R57, check 2: a class byte without a class, or a bad destination set. -/
theorem requestSend_badParam {params : List Byte} {o : SendOperand} {s : State} (ho : sendOperand params = o)
    (h : o.cls = none ∨ goodDestination o.dest s = false) : requestSend params s = refuse .badParam s := by
  rcases hc : o.cls with _ | cls
  · simp [requestSend, ho, hc]
  · have hd : goodDestination o.dest s = false := h.resolve_left (by simp [hc])
    simp [requestSend, ho, hc, hd]

/-- R57, checks 3 to 5: the length, the places and the blocks, once the class and the destination set are good. -/
theorem requestSend_of_good {params : List Byte} {o : SendOperand} {cls : MsgClass} {s : State}
    (ho : sendOperand params = o) (hc : o.cls = some cls) (hd : goodDestination o.dest s = true) :
    requestSend params s
      = if 128 < o.payload.length then refuse .tooLong s
        else if 32 ≤ s.events.heldCount then refuse .queueFull s
        else if s.tx.freeBlocks < blocks o.payload.length then refuse .poolFull s
        else acceptSend cls o s := by
  simp [requestSend, ho, hc, hd, Config.longestMessage, Config.resultPlaces, blocksFor_eq_blocks]

/-- A SEND that passes all five checks is accepted (R57, R58). -/
theorem requestSend_accepted {params : List Byte} {o : SendOperand} {cls : MsgClass} {s : State}
    (ho : sendOperand params = o) (hc : o.cls = some cls) (hd : goodDestination o.dest s = true)
    (hlen : o.payload.length ≤ 128) (hplace : s.events.heldCount < 32) (hblocks : blocks o.payload.length ≤ s.tx.freeBlocks) :
    requestSend params s = acceptSend cls o s := by
  rw [requestSend_of_good ho hc hd, if_neg (by omega), if_neg (by omega), if_neg (by omega)]

/-- SEND neither reads nor writes the receive state of the Host Port. -/
theorem requestSend_receive (params : List Byte) (receive : ReceiveState) (s : State) :
    requestSend params { s with host.receive := receive }
      = ((requestSend params s).1, (requestSend params s).2.1,
          { (requestSend params s).2.2 with host.receive := receive }) := by
  have hd (dest : Half) : goodDestination dest { s with host.receive := receive } = goodDestination dest s := rfl
  unfold requestSend
  simp only [hd]
  (repeat' split) <;> rfl

/-- SEND leaves the Host Port to the reply. -/
theorem requestSend_host (params : List Byte) (s : State) : (requestSend params s).2.2.host = s.host := by
  unfold requestSend
  dsimp only
  (repeat' split) <;> rfl

/-! ## The ticket -/

/-- No record holds the ticket. -/
def freeTicket (records : List Record) (t : Ticket) : Prop := ∀ r ∈ records, r.ticket ≠ t

theorem stepsOn_after (t : Ticket) (k : Nat) : stepsOn (after t) k = stepsOn t (k + 1) := by
  induction k with
  | zero => rfl
  | succ k ih => exact congrArg after ih

/-- R59: the counter runs through 1 to 65535. -/
theorem stepsOn_toNat {t : Ticket} (ht : t ≠ 0) (k : Nat) : (stepsOn t k).toNat = (t.toNat - 1 + k) % 65535 + 1 := by
  have hpos : t.toNat ≠ 0 := fun h => ht (BitVec.eq_of_toNat_eq h)
  have hlt := t.isLt
  induction k with
  | zero => simp only [stepsOn]; omega
  | succ k ih =>
    simp only [stepsOn, after]
    split
    · change 1 = _
      omega
    · rw [BitVec.toNat_ofNat]
      omega

/-- R59: the values of the counter repeat only after 65535 steps. -/
theorem stepsOn_injective {t : Ticket} (ht : t ≠ 0) {i j : Nat} (hi : i < 65535) (hj : j < 65535)
    (h : stepsOn t i = stepsOn t j) : i = j := by
  have e := congrArg BitVec.toNat h
  rw [stepsOn_toNat ht, stepsOn_toNat ht] at e
  omega

/-- Of more values of the counter than there are records, one is free. -/
theorem exists_freeTicket {records : List Record} {t : Ticket} {n : Nat} (ht : t ≠ 0) (hlen : records.length < n)
    (hn : n ≤ 65535) : ∃ j < n, freeTicket records (stepsOn t j) := by
  by_contra hnone
  have hheld : (List.range n).map (stepsOn t) ⊆ records.map fun r => r.ticket := by
    intro x hx
    obtain ⟨j, hj, rfl⟩ := List.mem_map.1 hx
    by_contra hfree
    exact hnone ⟨j, List.mem_range.1 hj, fun r hr e => hfree (List.mem_map.2 ⟨r, hr, e⟩)⟩
  have hdistinct : ((List.range n).map (stepsOn t)).Nodup := by
    refine List.Nodup.map_on (fun i hi j hj => ?_) List.nodup_range
    exact stepsOn_injective ht (by have := List.mem_range.1 hi; omega) (by have := List.mem_range.1 hj; omega)
  have := (hdistinct.subperm hheld).length_le
  simp only [List.length_map, List.length_range] at this
  omega

/-- R59: the search stops at the first free value of the counter. -/
theorem freshTicket_eq_stepsOn {records : List Record} {fuel k : Nat} {t : Ticket} (hk : k < fuel)
    (hheld : ∀ j < k, ¬freeTicket records (stepsOn t j)) (hfree : freeTicket records (stepsOn t k)) :
    freshTicket records fuel t = stepsOn t k := by
  have hany (u : Ticket) : (records.any fun r => r.ticket == u) = true ↔ ¬freeTicket records u := by
    simp [freeTicket]
  induction fuel generalizing k t with
  | zero => omega
  | succ fuel ih =>
    unfold freshTicket
    cases k with
    | zero => exact if_neg fun h => (hany t).1 h hfree
    | succ k =>
      rw [if_pos ((hany t).2 (hheld 0 (by omega))), nextTicketAfter_eq_after, ← stepsOn_after]
      rw [← stepsOn_after] at hfree
      exact ih (by omega) (fun j hj => stepsOn_after t j ▸ hheld (j + 1) (by omega)) hfree

/-- R59: with fewer than 32 records the ticket assigned is the first free value of the counter, found within 32 steps. -/
theorem assignedTicket_spec {s : State} (ht : s.tx.nextTicket ≠ 0) (hlen : s.tx.records.length < 32) :
    ∃ k < 32, (∀ j < k, ¬freeTicket s.tx.records (stepsOn s.tx.nextTicket j))
      ∧ freeTicket s.tx.records (stepsOn s.tx.nextTicket k) ∧ assignedTicket s = stepsOn s.tx.nextTicket k := by
  classical
  have hexists := exists_freeTicket ht hlen (by decide)
  obtain ⟨⟨hk, hfree⟩, hheld⟩ := And.intro (Nat.find_spec hexists) fun j => Nat.find_min hexists (m := j)
  generalize Nat.find hexists = k at hk hfree hheld
  have hheld' : ∀ j < k, ¬freeTicket s.tx.records (stepsOn s.tx.nextTicket j) := fun j hj hf =>
    hheld j hj ⟨by omega, hf⟩
  exact ⟨k, hk, hheld', hfree, freshTicket_eq_stepsOn hk hheld' hfree⟩

/-! ## SEND executed now -/

/-- An executed SEND that finds the station open is answered by its own checks (R140). -/
theorem exec_send {seq : Byte} {params : List Byte} {s : State} (hn : executesNow seq s)
    (hopen : s.station.state = .detached ∨ s.station.state = .attached) (hl : 7 ≤ params.length) {status : Status}
    {data : List Byte} {u : State} (hp : requestSend params s = (status, data, u)) :
    exec (.send seq params) s = .next (answered 0xA0 seq status data u) := by
  have hu : u.host = s.host := by
    have := requestSend_host params s
    rwa [hp] at this
  refine exec_performed (k := .send) (by decide) hn (show 9 ≤ params.length + 2 by omega) ?_ ?_ hu
  · rcases hopen with h | h <;> rw [h] <;> rfl
  · have := requestSend_receive params .idle s
    rwa [hp] at this

/-- Settles O22: the SEND is accepted (`requestSend_accepted`), and `assignedTicket_spec` says which ticket it is given. -/
theorem sendIsAccepted : Obligations.SendIsAccepted := by
  intro seq code options destHi destLo tag lifeHi lifeLo payload cls s hn haccounts hopen hcls hne hlt hown hlen hplaces hblocks
  obtain ⟨⟨hcount, -⟩, -, ⟨-, -, hnext⟩, -⟩ := haccounts
  obtain ⟨k, hk, hheld, hfree, hassigned⟩ := assignedTicket_spec hnext (by omega)
  refine ⟨k, hk, fun j hj => by simpa [freeTicket] using hheld j hj, hfree, ?_⟩
  have hplace : s.events.heldCount < 32 := by rwa [hcount, ← resultTickets_length]
  have haccepted := requestSend_accepted (sendOperand_fixed code options destHi destLo tag lifeHi lifeLo payload)
    (classOf_eq_some hcls) ((goodDestination_iff _ s).2 ⟨hne, hlt, hown⟩) hlen hplace hblocks
  rw [exec_send hn hopen (by simp) haccepted, ← halfBytes_eq]
  simp only [newRecord, hassigned, blocksFor_eq_blocks, nextTicketAfter_eq_after,
    ← BitVec.setWidth_eq_extractLsb' (show 12 ≤ 16 by decide), stepsOn]

/-- Settles O23: `exec_turnedAway` gives the first check, and `requestSend` the other four in their order. -/
theorem sendChecksInOrder : Obligations.SendChecksInOrder := by
  intro seq code options destHi destLo tag lifeHi lifeLo payload s hn hresults request isOpen badOperand places refused
  have ho := sendOperand_fixed code options destHi destLo tag lifeHi lifeLo payload
  have hplaces : places = s.events.heldCount := by
    rw [hresults.1, ← resultTickets_length]
  have hgood (h : ¬badOperand) : (∃ cls, classOf code = some cls) ∧ goodDestination (destHi ++ destLo) s = true := by
    simp only [badOperand, not_or, not_exists, not_and, Bool.not_eq_true] at h
    obtain ⟨hcode, hne, hlt, hown⟩ := h
    exact ⟨exists_classOf (by omega), (goodDestination_iff _ s).2 ⟨hne, by omega, hown⟩⟩
  have hrefused {status : Status} (hopen : isOpen) (h : requestSend _ s = refuse status s) : refused status :=
    exec_send hn hopen (by simp) h
  refine ⟨fun hclosed => ?state, fun hopen hbad => ?operand, fun hopen hok hlong => ?length, fun hopen hok hlen hfull => ?places,
    fun hopen hok hlen hplace hpool => ?blocks, fun hopen hok hlen hplace hpool => ?accepted⟩
  case state =>
    refine exec_turnedAway (k := .send) hn (show 9 ≤ _ by simp) ?_ (by decide)
    rcases hs : s.station.state
    · rfl
    · exact absurd (.inl hs) hclosed
    · exact absurd (.inr hs) hclosed
    · rfl
  case operand =>
    refine hrefused hopen (requestSend_badParam ho ?_)
    by_cases hcode : 1 < code.toNat
    · exact .inl (classOf_eq_none hcode)
    · refine .inr (Bool.eq_false_iff.2 fun hd => ?_)
      obtain ⟨hne, hlt, hown⟩ := (goodDestination_iff _ s).1 hd
      rcases hbad with h | h | h | ⟨n, hn, h⟩
      · exact hcode h
      · exact hne h
      · exact absurd hlt (Nat.not_lt.2 h)
      · simp [hown n hn] at h
  all_goals obtain ⟨⟨cls, hc⟩, hd⟩ := hgood hok
  case length => exact hrefused hopen (by rw [requestSend_of_good ho hc hd, if_pos hlong])
  case places => exact hrefused hopen (by rw [requestSend_of_good ho hc hd, if_neg (Nat.not_lt.2 hlen), if_pos (by omega)])
  case blocks =>
    exact hrefused hopen
      (by rw [requestSend_of_good ho hc hd, if_neg (Nat.not_lt.2 hlen), if_neg (by omega), if_pos hpool])
  case accepted =>
    exact ⟨_, _, exec_send hn hopen (by simp) (requestSend_accepted ho hc hd hlen (by omega) hpool), by simp⟩

end Sys2Proof.Machine
end

section
/-! CANCEL (R92 to R94): the record that the ticket names, and what becomes of it. -/
namespace Sys2Proof.Machine

open Sys2Proof.Claims

theorem ticketOperand_pair (hi lo : Byte) : ticketOperand [hi, lo] = hi ++ lo := rfl

/-- R92: no record holds the ticket. -/
theorem requestCancel_of_none {hi lo : Byte} {s : State} (h : ∀ r ∈ s.tx.records, r.ticket ≠ hi ++ lo) :
    requestCancel [hi, lo] s = (.noSuchTicket, [], s) := by
  have hfind : findRecord (hi ++ lo) s = none := by simpa [findRecord] using h
  rw [requestCancel, ticketOperand_pair, hfind]
  rfl

/-- R92, R94: the record that holds the ticket is in SENDING. -/
theorem requestCancel_of_sending {hi lo : Byte} {r : Record} {s : State} (h : named (hi ++ lo) r s)
    (hs : r.state = .sending) :
    requestCancel [hi, lo] s = (.cancelPending, [], replaced { r with cancelRequested := true } s) := by
  have hfind : findRecord (hi ++ lo) s = some r := h
  simp only [requestCancel, ticketOperand_pair, hfind, cancelRecord, if_pos hs, putRecord_eq_replaced]

/-- R92, R93: the record that holds the ticket is in another state. -/
theorem requestCancel_of_not_sending {hi lo : Byte} {r : Record} {s : State} (h : named (hi ++ lo) r s)
    (hs : r.state ≠ .sending) : requestCancel [hi, lo] s = (.ok, [], ended r .cancelled s) := by
  have hfind : findRecord (hi ++ lo) s = some r := h
  simp only [requestCancel, ticketOperand_pair, hfind, cancelRecord, if_neg hs, finishRecord_eq_ended]

/-- An executed CANCEL that finds the station configured is answered by its own rule (R140, R141). -/
theorem exec_cancel {seq hi lo : Byte} {s : State} (hn : executesNow seq s) (hc : s.station.state ≠ .unconfigured)
    {status : Status} {u : State}
    (hp : requestCancel [hi, lo] { s with host.receive := .idle } = (status, [], { u with host.receive := .idle }))
    (hu : u.host = s.host) : exec (.cancel seq [hi, lo]) s = .next (answered 0xA1 seq status [] u) := by
  refine exec_performed (k := .cancel) (params := [hi, lo]) (by decide) hn rfl ?_ hp hu
  rcases hs : s.station.state
  case unconfigured => exact absurd hs hc
  all_goals rfl

/-- Settles O24: the general checks turn an UNCONFIGURED station away, and else `requestCancel` answers as the search for
the ticket and the state of the record found say. -/
theorem cancelEndsOrMarksTheRecord : Obligations.CancelEndsOrMarksTheRecord := by
  intro seq hi lo s hn
  refine ⟨fun hu => ?unconfigured, fun hc hnone => ?noRecord, fun hc r hr hs => ?sending, fun hc r hr hs => ?ended⟩
  case unconfigured =>
    exact exec_turnedAway (k := .cancel) (params := [hi, lo]) hn rfl (by rw [hu]; rfl) (by decide)
  case noRecord => exact exec_cancel hn hc (requestCancel_of_none hnone) rfl
  case sending => exact exec_cancel hn hc (requestCancel_of_sending hr hs) rfl
  case ended => exact exec_cancel hn hc (requestCancel_of_not_sending hr hs) rfl

end Sys2Proof.Machine
end

section
/-! A composed cell as an image: its fields and its CRC are read back (R20 to R23). -/
namespace Sys2Proof.Machine

/-! ## Bytes of an image -/

/-- The bytes of a run that lies within an image. -/
theorem map_imageByte_range' {image : List Byte} {a n : Nat} (h : a + n ≤ image.length) :
    (List.range' a n).map (imageByte image) = (image.drop a).take n := by
  apply List.ext_getElem
  · simp; omega
  · intro i hi _
    have hlt : a + i < image.length := by simp at hi; omega
    simp [imageByte, List.getElem?_eq_getElem hlt]

theorem imageBody_eq_take {image : List Byte} (h : 28 ≤ image.length) : imageBody image = image.take 28 :=
  map_imageByte_range' (a := 0) (n := 28) (by omega)

theorem readCell_payload {image : List Byte} (h : 28 ≤ image.length) :
    (readCell image).payload = (image.drop 12).take 16 := map_imageByte_range' (a := 12) (n := 16) (by omega)

theorem padPayload_of_length {bytes : List Byte} (h : bytes.length = 16) : padPayload bytes = bytes := by
  simp [padPayload, ← h]

theorem cellBody_length (c : Cell) : (cellBody c).length = 28 := by simp [cellBody, padPayload]

theorem encodeCell_length (c : Cell) : (encodeCell c).length = 30 := by simp [encodeCell, withCrc, halfBytes, cellBody_length]

/-! ## Fields of a byte -/

theorem halfOf_hiByte_loByte (h : Half) : halfOf (hiByte h) (loByte h) = h := by
  refine (BitVec.extractLsb'_append_extractLsb'_eq_extractLsb' (by decide)).trans ?_
  simp

theorem nibbles_append (a b : Nibble) : hiNibble (a ++ b) = a ∧ loNibble (a ++ b) = b :=
  ⟨BitVec.extractLsb'_append_eq_left, BitVec.extractLsb'_append_eq_right⟩

/-- Byte 2 of a cell holds the two ends of a message, the request for acknowledgement and the index. -/
theorem flagByte_fields (first last ackreq : Bool) (index : BitVec 3) :
    let b := flagBit first 7 ||| flagBit last 6 ||| flagBit ackreq 5 ||| index.setWidth 8
    b.getLsbD 7 = first ∧ b.getLsbD 6 = last ∧ b.getLsbD 5 = ackreq ∧ b.extractLsb' 0 3 = index := by
  revert first last ackreq index
  decide

/-- Byte 8 of a cell holds the mark of a notice and its target. -/
theorem ackByte_fields (valid : Bool) (target : Nibble) :
    let b := flagBit valid 7 ||| target.setWidth 8
    b.getLsbD 7 = valid ∧ loNibble b = target := by
  revert valid target
  decide

/-! ## Reading back -/

/-- R23: the CRC of a composed cell is that of its bytes 0 to 27. -/
theorem crc16_imageBody_encodeCell (c : Cell) : crc16 (imageBody (encodeCell c)) = imageCrc (encodeCell c) := by
  have hlen := cellBody_length c
  have hbody : imageBody (encodeCell c) = cellBody c := by
    rw [imageBody_eq_take (by simp [encodeCell_length])]
    simp [encodeCell, withCrc, ← hlen]
  have hcrc : imageCrc (encodeCell c) = halfOf (hiByte (crc16 (cellBody c))) (loByte (crc16 (cellBody c))) := by
    simp [imageCrc, imageByte, encodeCell, withCrc, halfBytes, hlen]
  rw [hbody, hcrc, halfOf_hiByte_loByte]

/-- R20 to R22: a composed cell with a full payload field reads back field for field. -/
theorem readCell_encodeCell {c : Cell} (h : c.payload.length = 16) : readCell (encodeCell c) = c := by
  have hpayload : (readCell (encodeCell c)).payload = c.payload := by
    rw [readCell_payload (by simp [encodeCell_length])]
    simp [encodeCell, withCrc, cellBody, padPayload_of_length h, ← h]
  obtain ⟨hkind, hsource⟩ := nibbles_append c.kind c.source
  obtain ⟨hfirst, hlast, hackreq, hindex⟩ := flagByte_fields c.first c.last c.ackreq c.index
  obtain ⟨hvalid, htarget⟩ := ackByte_fields c.ackValid c.ackTarget
  obtain ⟨-, hnumber⟩ := nibbles_append 0 c.number
  obtain ⟨-, hackNumber⟩ := nibbles_append 0 c.ackNumber
  have hdest := halfOf_hiByte_loByte c.dest
  rcases c
  rw [readCell, Cell.mk.injEq]
  exact ⟨hkind, hsource, rfl, hfirst, hlast, hackreq, hindex, hnumber, rfl, hdest, rfl, hvalid, htarget, hackNumber, rfl,
    rfl, hpayload⟩

end Sys2Proof.Machine
end

section
/-! Acknowledgement notices (R31, R83, R85): a notice is applied first, and the rest of its cell then goes on as the same cell
without it. -/
namespace Sys2Proof.Machine

open Sys2Proof.Claims

/-! ## The hand-off of a cell of the recorded epoch -/

/-- The hand-off of a good cell after its epoch and its acknowledgement field (R30, R32). -/
def contentStep (src : Node) (c : Cell) (s : State) : State :=
  if c.kind = kindControl then
    if s.station.config.role = .member then controlStep src c s else s
  else if c.kind = kindData ∧ addressedHere c s then dataStep src c s
  else s

/-- R29: a good cell of the recorded epoch is counted, its notice is applied, and its content follows. -/
theorem handOff_of_sameEpoch {slot : Slot} {src : Node} {c : Cell} {s : State} (hepoch : sameEpoch c src s) :
    handOff src c (sampled slot s)
      = contentStep src c (if carriesNotice c s then applyNotice src c.ackNumber (heard slot s) else heard slot s) := by
  have hstep : epochStep src c.epoch (heard slot s) = heard slot s := if_pos hepoch
  have hgood : { sampled slot s with counters.good := bump (sampled slot s).counters.good } = heard slot s := by
    rw [bump_eq_up]
    rfl
  unfold handOff
  simp only [hgood, hstep]
  rfl

/-- R24, R83: the judgement of a slot and the notice in its cell touch different things, so their order does not matter. -/
theorem applyNotice_heard (slot : Slot) (n : Node) (k : Nibble) (s : State) :
    applyNotice n k (heard slot s) = heard slot (applyNotice n k s) := by
  have hrecords : (heard slot s).tx.records = s.tx.records := rfl
  unfold applyNotice
  rw [hrecords]
  rcases s.tx.records.find? (Record.matchesNotice n k) with _ | r
  · rfl
  · dsimp only
    split <;> rfl

/-! ## The same cell without its notice -/

/-- The same cell without a notice. -/
def silenced (c : Cell) : Cell := { c with ackValid := false }

theorem carriesNotice_silenced (c : Cell) (s : State) : carriesNotice (silenced c) s = false := rfl

theorem contentStep_silenced (src : Node) (c : Cell) (s : State) : contentStep src (silenced c) s = contentStep src c s := rfl

/-- The image of the same cell without a notice. -/
def withoutNotice (image : List Byte) : List Byte := encodeCell (silenced (readCell image))

theorem readCell_withoutNotice (image : List Byte) : readCell (withoutNotice image) = silenced (readCell image) :=
  readCell_encodeCell rfl

/-- R26: the checks do not look at the acknowledgement field. -/
theorem validCell_withoutNotice {own : Option Node} {slot : Slot} {image : List Byte} (h : validCell own slot image) :
    validCell own slot (withoutNotice image) := by
  obtain ⟨-, hfields⟩ := h
  refine ⟨crc16_imageBody_encodeCell _, ?_⟩
  rw [readCell_withoutNotice]
  exact hfields

/-- R25: a cell of a known kind is not an empty slot. -/
theorem imageByte_zero_ne_of_kind {image : List Byte}
    (h : (readCell image).kind = 1 ∨ (readCell image).kind = 2 ∨ (readCell image).kind = 3) : imageByte image 0 ≠ 0xFF := by
  have hkind : (readCell image).kind = hiNibble (imageByte image 0) := rfl
  intro he
  rw [hkind, he] at h
  revert h
  decide

/-- A good cell is a good cell without its notice, also where the notice has been applied before. -/
theorem goodCell_withoutNotice {slot : Slot} {image : List Byte} {src : Node} {s : State} (k : Nibble)
    (h : goodCell slot image src s) : goodCell slot (withoutNotice image) src (applyNotice src k s) := by
  obtain ⟨hdue, hreceiving, -, hvalid, hsource, howner⟩ := h
  obtain ⟨-, hstation, -, hmap, hrx, -, hdue', -⟩ := applyNotice_frame src k s
  have hvalid' := validCell_withoutNotice hvalid
  have ⟨_, hkind, _⟩ := hvalid'
  refine ⟨hdue'.trans hdue, hrx ▸ hreceiving, imageByte_zero_ne_of_kind hkind, hstation ▸ hvalid',
    by rw [readCell_withoutNotice]; exact hsource, ?_⟩
  unfold ownerChecked ownedBy
  rw [hstation, hmap, hrx]
  exact howner

/-- R29, R83: a good cell of the recorded epoch with a notice acts as the same cell without it where the notice has been
applied. -/
theorem exec_notice {slot : Slot} {image : List Byte} {src : Node} {s : State} (hgood : goodCell slot image src s)
    (hepoch : sameEpoch (readCell image) src s) (hnotice : notice (readCell image) s) :
    exec (.cellReceived image) s
      = exec (.cellReceived (withoutNotice image)) (applyNotice src (readCell image).ackNumber s) := by
  have hepoch' : sameEpoch (silenced (readCell image)) src (applyNotice src (readCell image).ackNumber s) := by
    simpa [sameEpoch, silenced] using hepoch
  rw [exec_of_goodCell hgood, exec_of_goodCell (goodCell_withoutNotice _ hgood), readCell_withoutNotice,
    handOff_of_sameEpoch hepoch, handOff_of_sameEpoch hepoch', if_pos ((carriesNotice_iff _ _).2 hnotice),
    carriesNotice_silenced, if_neg Bool.false_ne_true, contentStep_silenced, applyNotice_heard]

/-! ## What a notice does -/

/-- R83: when a notice matches a record. -/
theorem matchesNotice_eq (src : Node) (k : Nibble) :
    Record.matchesNotice src k
      = fun r => r.ackreq && decide (begun r) && decide (r.number = some k) && r.pendingSet.getLsbD src.val := by
  funext r
  simp [Record.matchesNotice, Record.inFlight, begun, hasNode, Bool.beq_eq_decide_eq, Bool.or_assoc]

/-- Settles O47: `exec_notice` brings the notice in front of its cell, and `applyNotice_cases` says what it does there. -/
theorem noticesAreAppliedFirst : Obligations.NoticesAreAppliedFirst := by
  intro slot image src s hgood hepoch hnotice n silent matching
  have hexec : exec (.cellReceived image) s = exec (.cellReceived silent) (applyNotice src n s) :=
    exec_notice hgood hepoch hnotice
  rw [hexec]
  rcases applyNotice_cases src n s with ⟨hnone, hstale⟩ | ⟨r, hr, hfound⟩
  case inl =>
    rw [matchesNotice_eq] at hnone
    rw [hstale]
    exact ⟨fun _ => rfl, fun r hr => (nomatch hnone.symm.trans hr)⟩
  case inr =>
    rw [matchesNotice_eq] at hr
    refine ⟨fun hnone => (nomatch hnone.symm.trans hr), fun r' hr' => ?_⟩
    obtain rfl : r = r' := Option.some.inj (hr.symm.trans hr')
    rcases hfound with ⟨hempty, hstate, happly⟩ | ⟨hleft, happly⟩
    · rw [happly]
      exact ⟨fun _ _ => rfl, fun h => h.elim (absurd hempty) (absurd · hstate)⟩
    · rw [happly]
      exact ⟨fun h hs => hleft.elim (absurd h) (absurd · hs), fun _ => rfl⟩

end Sys2Proof.Machine
end

section
/-! The data of reports and fetches (R142, R143, R152 to R155): numbers in bytes, flag bytes and counts as the statements read them,
and each executed request with its answer. -/
namespace Sys2Proof.Machine

open Sys2Proof.Claims

/-! ## Numbers in bytes -/

@[simp] theorem hiByte_loByte_toNat (h : Half) : 256 * (hiByte h).toNat + (loByte h).toNat = h.toNat := by
  have := h.isLt
  simp only [hiByte, loByte, BitVec.extractLsb'_toNat, Nat.shiftRight_eq_div_pow]
  omega

/-- The field of a set is the set as a number: bits 15 to 12 are 0. -/
@[simp] theorem setField_toNat (set : NodeSet) : (setField set).toNat = set.toNat := by
  rw [setField, BitVec.toNat_append]
  simp

@[simp] theorem byteAt_cons_zero (b : Byte) (data : List Byte) : byteAt (b :: data) 0 = b.toNat := rfl

@[simp] theorem byteAt_cons_succ (b : Byte) (data : List Byte) (i : Nat) : byteAt (b :: data) (i + 1) = byteAt data i := rfl

@[simp] theorem pairAt_cons_zero (hi lo : Byte) (data : List Byte) :
    pairAt (hi :: lo :: data) 0 = 256 * hi.toNat + lo.toNat := rfl

@[simp] theorem pairAt_cons_succ (b : Byte) (data : List Byte) (i : Nat) : pairAt (b :: data) (i + 1) = pairAt data i := rfl

/-- Fields sent one after another, two bytes each, are read back at the even offsets. -/
theorem pairAt_flatMap_halfBytes (fields : List Half) (i : Nat) :
    pairAt (fields.flatMap halfBytes) (2 * i) = (fields.getD i 0).toNat := by
  induction fields generalizing i with
  | nil => rfl
  | cons h rest ih =>
    cases i with
    | zero => exact hiByte_loByte_toNat h
    | succ i => exact ih i

theorem getLsbD_zero_eq_decide (b : Byte) : b.getLsbD 0 = decide (b.toNat % 2 = 1) := Nat.testBit_zero ..

/-! ## Flag bytes -/

/-- Flags at their own bits add up without a carry. -/
theorem flagBits_toNat (a b c d e : Bool) :
    (flagBit a 0 ||| flagBit b 1 ||| flagBit c 2 ||| flagBit d 3 ||| flagBit e 4).toNat
      = bit a 0 + bit b 1 + bit c 2 + bit d 3 + bit e 4 := by
  revert a b c d e
  decide

/-- R143: byte 10 of STATUS; while the part runs, ATTN is active exactly with something to fetch. -/
theorem statusFlags_eq {s : State} (h : s.phase = .running) :
    statusFlags s = BitVec.ofNat 8 (bit s.map.active.isSome 0 + bit s.map.pendingMap.isSome 1 + bit s.link.permission 2
      + bit (decide (s.rx.mailbox ≠ [] ∨ s.events.records ≠ [])) 3) := by
  have hattn : attnActive s = decide (s.rx.mailbox ≠ [] ∨ s.events.records ≠ []) := by
    rw [Bool.eq_iff_iff]
    simp [attnActive, h]
  have hflags : (statusFlags s).toNat = bit s.map.active.isSome 0 + bit s.map.pendingMap.isSome 1 + bit s.link.permission 2
      + bit (attnActive s) 3 := by
    simpa [statusFlags, flagBit, bit] using
      flagBits_toNat s.map.active.isSome s.map.pendingMap.isSome s.link.permission (attnActive s) false
  rw [← hattn, ← hflags, BitVec.ofNat_toNat, BitVec.setWidth_eq]

/-- R152: byte 3 of QUERY_TICKET. -/
theorem recordFlags_toNat (r : Record) :
    (recordFlags r).toNat = bit (decide (r.cls = .urgent)) 0 + bit r.ackreq 1 + bit r.cancelRequested 2 + bit r.number.isSome 3
      + bit (decide (∃ p, r.pass = some p ∧ p.kind = .retransmission)) 4 := by
  have hpass : ((r.pass.map fun p => p.kind) == some .retransmission)
      = decide (∃ p, r.pass = some p ∧ p.kind = .retransmission) := by
    rw [Bool.eq_iff_iff]
    simp
  rw [recordFlags, flagBits_toNat, hpass]
  rfl

/-! ## Counts -/

theorem countP_finRange_get {α : Type} {n : Nat} (v : Vector α n) (p : α → Bool) :
    ((List.finRange n).countP fun k => p (v.get k)) = v.toList.countP p := by
  have hlist : v.toList = (List.finRange n).map v.get := by
    apply List.ext_getElem
    · simp
    · intro i hi _
      simp [Vector.get]
  rw [hlist, List.countP_map]
  rfl

/-- R119: the events that are no results are those besides the results. -/
theorem nonResultEvents_eq (s : State) :
    nonResultEvents s = s.events.records.length - (resultTickets s.events.records).length := by
  rw [resultTickets_length, resultCount, nonResultEvents]
  have := s.events.records.length_eq_countP_add_countP (p := fun e => e.kind.isResult)
  simp only [Bool.not_eq_true, Bool.decide_eq_false] at this
  omega

/-! ## IDENT and STATUS -/

theorem exec_ident {seq : Byte} {s : State} (hn : executesNow seq s) :
    exec (.ident seq []) s = .next (answered 0x81 seq .ok (identData s) s) :=
  exec_performed (k := .ident) (params := []) (by decide) hn rfl rfl rfl rfl

theorem exec_status {seq : Byte} {s : State} (hn : executesNow seq s) :
    exec (.status seq []) s = .next (answered 0x82 seq .ok (statusData s) s) :=
  exec_performed (k := .status) (params := []) (by decide) hn rfl rfl rfl rfl

/-- R34, R143: the owned slot count. -/
theorem ownedSlotCount_eq (s : State) :
    ownedSlotCount s = (match s.map.active, s.station.config.node with
      | some m, some n => (List.finRange 15).countP fun k => m.owners.get k == some n
      | _, _ => 0) := by
  unfold ownedSlotCount
  rcases s.map.active with _ | m
  · rfl
  · rcases s.station.config.node with _ | n
    · rfl
    · exact (countP_finRange_get m.owners fun o => o == some n).symm

/-- Settles O16: IDENT's bytes are fixed but for the rate; of STATUS's, the flags, the values that may be missing and the counts
are each spelled as R143 has them. -/
theorem identAndStatusReport : Obligations.IdentAndStatusReport := by
  intro seq s hn c
  refine ⟨?ident, ?status⟩
  case ident =>
    rw [exec_ident hn, BitVec.ofNat_toNat]
    rfl
  case status =>
    rw [exec_status hn]
    obtain ⟨hrunning, -⟩ := hn
    have hnode : (c.node.map nodeByte).getD 0xFF
        = (match c.node with | none => 0xFF | some n => BitVec.ofNat 8 n.val) := by
      cases c.node <;> rfl
    have hgeneration : (activeGeneration s).getD 0 = (match s.map.active with | none => 0 | some m => m.generation) := by
      unfold activeGeneration
      cases s.map.active <;> rfl
    have heffective : halfBytes ((s.map.pendingMap.map fun p => p.effective).getD 0)
        = [BitVec.ofNat 8 (match s.map.pendingMap with | none => 0 | some p => p.effective.toNat / 256),
           BitVec.ofNat 8 (match s.map.pendingMap with | none => 0 | some p => p.effective.toNat % 256)] := by
      rw [halfBytes_eq]
      cases s.map.pendingMap <;> rfl
    rw [statusData, hnode, hgeneration, heffective, statusFlags_eq hrunning, halfBytes_eq s.link.frame,
      ownedSlotCount_eq, nonResultEvents_eq, ← resultTickets_length, assemblingCount, ← countP_finRange_get,
      ← BitVec.ofNat_toNat]
    rfl

/-! ## COUNTERS -/

/-- Settles O19: bit 0 of the option is its parity, and the counters are read before they are cleared. -/
theorem countersAreReadAndCleared : Obligations.CountersAreReadAndCleared := by
  intro seq option s hn
  refine ⟨countersData s.counters, rfl, fun i => pairAt_flatMap_halfBytes _ i.val, ?_⟩
  refine exec_performed (k := .counters) (params := [option]) (by decide) hn rfl rfl ?_ rfl
  have hbit : (param [option] 0).getLsbD 0 = decide (option.toNat % 2 = 1) := getLsbD_zero_eq_decide option
  simp only [performRequest, requestCounters, hbit, decide_eq_true_iff]
  split <;> rfl

/-! ## QUERY_TICKET -/

theorem exec_queryTicket {seq hi lo : Byte} {s : State} (hn : executesNow seq s) {status : Status} {data : List Byte}
    (hp : requestQuery [hi, lo] { s with host.receive := .idle } = (status, data, { s with host.receive := .idle })) :
    exec (.queryTicket seq [hi, lo]) s = .next (answered 0xA2 seq status data s) :=
  exec_performed (k := .queryTicket) (params := [hi, lo]) (by decide) hn rfl rfl hp rfl

theorem requestQuery_of_none {hi lo : Byte} {s : State} (h : ∀ r ∈ s.tx.records, r.ticket ≠ hi ++ lo) :
    requestQuery [hi, lo] s = (.noSuchTicket, [], s) := by
  have hfind : findRecord (hi ++ lo) s = none := by simpa [findRecord] using h
  rw [requestQuery, ticketOperand_pair, hfind]
  rfl

theorem requestQuery_of_named {hi lo : Byte} {r : Record} {s : State} (h : named (hi ++ lo) r s) :
    requestQuery [hi, lo] s = (.ok, recordData r s, s) := by
  have hfind : findRecord (hi ++ lo) s = some r := h
  rw [requestQuery, ticketOperand_pair, hfind]

/-- R152: byte 17 is the next index of the pass while that is 0 to 7, and 0 without a pass. -/
theorem reportedIndex_spec (r : Record) :
    (r.pass = none → (reportedIndex r).toNat = 0)
      ∧ (∀ p, r.pass = some p → p.nextIndex ≤ 7 → (reportedIndex r).toNat = p.nextIndex)
      ∧ (reportedIndex r).toNat ≤ 7 := by
  rcases hpass : r.pass with _ | p
  · simp [reportedIndex, hpass]
  · by_cases hle : p.nextIndex ≤ 7
    · have hindex : (reportedIndex r).toNat = p.nextIndex := by
        simp only [reportedIndex, hpass, if_pos hle, byteOf, BitVec.toNat_ofNat]
        omega
      refine ⟨nofun, ?_, hindex ▸ hle⟩
      rintro _ ⟨⟩ -
      exact hindex
    · have hfree := (Config.fullIndex r.ticket r.attempts).isLt
      refine ⟨nofun, ?_, ?_⟩
      · rintro _ ⟨⟩ h
        exact absurd h hle
      · simp only [reportedIndex, hpass, if_neg hle, BitVec.toNat_setWidth]
        omega

/-- R152: the 21 bytes side by side. -/
theorem recordData_eq (r : Record) (s : State) :
    recordData r s
      = [hiByte r.ticket, loByte r.ticket, r.state.code, recordFlags r, (r.number.map fun n => BitVec.setWidth 8 n).getD 0,
         byteOf r.attempts, byteOf r.ackTimer, hiByte (setField r.dest), loByte (setField r.dest),
         hiByte (setField (if r.ackreq then r.pendingSet else 0)), loByte (setField (if r.ackreq then r.pendingSet else 0)),
         hiByte (setField r.acked), loByte (setField r.acked), hiByte r.lifetime, loByte r.lifetime,
         byteOf r.payload.length, r.tag, reportedIndex r, hiByte (setField ((r.pass.map fun p => p.set).getD 0)),
         loByte (setField ((r.pass.map fun p => p.set).getD 0)), byteOf (retryPosition r s)] := rfl

/-- Settles O20: the search by ticket decides between the two answers, and the 21 bytes of the record are read one after
another. -/
theorem queryTicketReportsTheRecord : Obligations.QueryTicketReportsTheRecord := by
  intro seq hi lo s hn
  refine ⟨fun hnone => exec_queryTicket hn (requestQuery_of_none hnone), fun r hr => ?_⟩
  obtain ⟨hidle, hindex, hrange⟩ := reportedIndex_spec r
  refine ⟨recordData r s, exec_queryTicket hn (requestQuery_of_named hr), ?_⟩
  simp only [recordData_eq, pairAt_cons_zero, pairAt_cons_succ, byteAt_cons_zero, byteAt_cons_succ, hiByte_loByte_toNat,
    setField_toNat, recordFlags_toNat, byteOf, BitVec.toNat_ofNat, acked_eq_ackedSet, true_and]
  refine ⟨rfl, ?state, ?number, ?pendingSet, rfl, hidle, hindex, hrange, ?passSet, ?retryPlace⟩
  case state => cases r.state <;> rfl
  case number =>
    rcases r.number with _ | n
    · rfl
    · exact BitVec.toNat_setWidth_of_le (by decide)
  case pendingSet => exact apply_ite BitVec.toNat ..
  case passSet => cases r.pass <;> rfl
  case retryPlace =>
    rw [retryPosition]
    split <;> rfl

/-! ## FETCH_MESSAGE and FETCH_EVENT -/

theorem exec_fetchMessage {seq : Byte} {s : State} (hn : executesNow seq s) {status : Status} {data : List Byte} {u : State}
    (hp : requestFetchMessage { s with host.receive := .idle } = (status, data, { u with host.receive := .idle }))
    (hu : u.host = s.host) : exec (.fetchMessage seq []) s = .next (answered 0xB0 seq status data u) :=
  exec_performed (k := .fetchMessage) (params := []) (by decide) hn rfl rfl hp hu

theorem exec_fetchEvent {seq : Byte} {s : State} (hn : executesNow seq s) {status : Status} {data : List Byte} {u : State}
    (hp : requestFetchEvent { s with host.receive := .idle } = (status, data, { u with host.receive := .idle }))
    (hu : u.host = s.host) : exec (.fetchEvent seq []) s = .next (answered 0xB1 seq status data u) :=
  exec_performed (k := .fetchEvent) (params := []) (by decide) hn rfl rfl hp hu

theorem isResult_eq_decide (k : EventKind) : k.isResult = decide (k.code = 1) := by
  cases k <;> rfl

theorem entryData_eq (e : Entry) :
    entryData e = [BitVec.ofNat 8 e.source.val, e.tag, BitVec.ofNat 8 e.payload.length, if e.ackreq then 1 else 0, e.lostBefore,
      BitVec.ofNat 8 (e.frame.toNat / 256), BitVec.ofNat 8 (e.frame.toNat % 256)] ++ e.payload := by
  rw [entryData, halfBytes_eq]
  rfl

/-- R124: the oldest event leaves the queue, and the count of its sort falls by 1. -/
theorem requestFetchEvent_cons {e : EventRecord} {rest : List EventRecord} {s : State} (h : s.events.records = e :: rest) :
    requestFetchEvent s
      = (.ok, eventData e,
          { s with
            events :=
              { records := rest, pendingLost := s.events.pendingLost
                heldCount := if e.kind.code = 1 then s.events.heldCount - 1 else s.events.heldCount
                nonResultCount := if e.kind.code = 1 then s.events.nonResultCount else s.events.nonResultCount - 1 } }) := by
  simp only [requestFetchEvent, h, isResult_eq_decide]
  by_cases hr : e.kind.code = 1
  · simp only [hr, decide_true, if_true]
  · simp only [hr, decide_false, if_false, Bool.false_eq_true]

/-- Settles O21: each queue is empty or has an oldest entry, and the bytes of an event follow its kind. -/
theorem fetchesReturnTheOldest : Obligations.FetchesReturnTheOldest := by
  intro seq s hn
  refine ⟨fun hnone => ?noMessage, fun e rest hcons => ?message, fun hnone => ?noEvent, fun e rest hcons => ?event⟩
  case noMessage => exact exec_fetchMessage hn (by simp [requestFetchMessage, hnone, refuse]) rfl
  case message =>
    refine exec_fetchMessage hn ?_ rfl
    rw [← entryData_eq, ← blocksFor_eq_blocks]
    simp [requestFetchMessage, hcons, Entry.blocks]
  case noEvent => exact exec_fetchEvent hn (by simp [requestFetchEvent, hnone]) rfl
  case event =>
    refine ⟨e.kind.code, eventKindData e.kind, ?fetched, ?data⟩
    case fetched =>
      refine exec_fetchEvent hn ?_ rfl
      rw [requestFetchEvent_cons (s := { s with host.receive := .idle }) hcons, eventData, halfBytes_eq]
      rfl
    case data =>
      rcases e.kind with ⟨t, o, a, dest, acked⟩ | m | c | ⟨g, f⟩ | ⟨old, new⟩ | ⟨n, old, new⟩ | n
      case result =>
        refine ⟨rfl, rfl, hiByte_loByte_toNat t, ?_, BitVec.toNat_ofNat .., (hiByte_loByte_toNat _).trans (setField_toNat dest),
          (hiByte_loByte_toNat _).trans (setField_toNat acked)⟩
        cases o <;> rfl
      case linkUp =>
        refine ⟨rfl, ?_⟩
        rintro n rfl
        rfl
      case linkDown => exact ⟨rfl, by cases c <;> rfl⟩
      case mapApplied => exact ⟨rfl, rfl, rfl, hiByte_loByte_toNat f⟩
      case mapResync => exact ⟨rfl, by cases old <;> rfl⟩
      case peerEpoch => exact ⟨rfl, rfl⟩
      case detached => exact ⟨rfl, rfl⟩

end Sys2Proof.Machine
end

section
/-! CONFIGURE (R144, R158): what its six bytes stand for, and its checks in their order. -/
namespace Sys2Proof.Machine

open Sys2Proof.Claims

/-- R144: every byte of a CONFIGURE is in its range. -/
abbrev configInRange (role node epoch rate wait limit : Byte) : Prop :=
  role.toNat ≤ 1 ∧ node.toNat ≤ 11 ∧ 1 ≤ epoch.toNat ∧ rate.toNat ≤ 3 ∧ 2 ≤ wait.toNat ∧ wait.toNat ≤ 15 ∧ limit.toNat ≤ 7

/-- The configuration that six bytes in their ranges carry. -/
def configOfBytes (role node epoch rate wait limit : Byte) : Configuration :=
  { role := if role = 0 then .member else .master, node := nodeOf? node.toNat, epoch := epoch, rateCode := rate.setWidth 2,
    ackWait := wait.toNat, retryLimit := limit.toNat }

theorem configOperand_bytes (role node epoch rate wait limit : Byte) :
    configOperand [role, node, epoch, rate, wait, limit]
      = if configInRange role node epoch rate wait limit then some (configOfBytes role node epoch rate wait limit) else none :=
  rfl

theorem configOfBytes_role {role : Byte} (h : role.toNat ≤ 1) (node epoch rate wait limit : Byte) :
    (configOfBytes role node epoch rate wait limit).role = .master ↔ role.toNat = 1 := by
  have hzero : role = 0 ↔ role.toNat = 0 := BitVec.toNat_inj.symm
  simp only [configOfBytes, hzero]
  by_cases h0 : role.toNat = 0
  · simp [h0]
  · simpa [h0] using show role.toNat = 1 by omega

theorem configOfBytes_rate {rate : Byte} (h : rate.toNat ≤ 3) (role node epoch wait limit : Byte) :
    (configOfBytes role node epoch rate wait limit).rateCode.toNat = rate.toNat := by
  simp only [configOfBytes, BitVec.toNat_setWidth]
  omega

/-- R144: a byte outside its range. -/
theorem requestConfigure_badParam {params : List Byte} (h : configOperand params = none) (s : State) :
    requestConfigure params s = (.badParam, [], s) := by
  rw [requestConfigure, h]
  rfl

/-- R144: an outbound record is held. -/
theorem requestConfigure_queueNotEmpty {params : List Byte} {c : Configuration} (h : configOperand params = some c) {s : State}
    (hr : s.tx.records ≠ []) : requestConfigure params s = (.queueNotEmpty, [], s) := by
  simp only [requestConfigure, h, if_pos hr, refuse]

/-- R144: the checks are passed. -/
theorem requestConfigure_accepted {params : List Byte} {c : Configuration} (h : configOperand params = some c) {s : State}
    (hr : s.tx.records = []) : requestConfigure params s = (.ok, [], applyConfig c s) := by
  simp only [requestConfigure, h, if_neg (not_not_intro hr)]

/-- R158: writing a configuration neither reads nor writes the receive state of the Host Port. -/
theorem applyConfig_receive (c : Configuration) (receive : ReceiveState) (s : State) :
    applyConfig c { s with host.receive := receive } = { applyConfig c s with host.receive := receive } := by
  unfold applyConfig forgetNumbers
  dsimp only
  (repeat' split) <;> rfl

/-- An executed CONFIGURE that finds the station off the link is answered by its own checks (R140, R141). -/
theorem exec_configure {seq role node epoch rate wait limit : Byte} {s : State} (hn : executesNow seq s)
    (hopen : s.station.state = .unconfigured ∨ s.station.state = .detached) {status : Status} {u : State}
    (hp : requestConfigure [role, node, epoch, rate, wait, limit] { s with host.receive := .idle }
      = (status, [], { u with host.receive := .idle })) (hu : u.host = s.host) :
    exec (.configure seq [role, node, epoch, rate, wait, limit]) s = .next (answered 0x83 seq status [] u) := by
  refine exec_performed (k := .configure) (params := [role, node, epoch, rate, wait, limit]) (by decide) hn rfl ?_ hp hu
  rcases hopen with h | h <;> rw [h] <;> rfl

/-- Settles O26: the ranges decide whether the six bytes are a configuration, and then the outbound queue whether it is
written. -/
theorem configureChecksItsBytes : Obligations.ConfigureChecksItsBytes := by
  intro seq role node epoch rate wait limit s hn hopen inRange
  have hoperand := configOperand_bytes role node epoch rate wait limit
  refine ⟨fun hbad => ?badParam, fun hgood hheld => ?queueNotEmpty, fun hgood hempty => ?accepted⟩
  case badParam => exact exec_configure hn hopen (requestConfigure_badParam (hoperand.trans (if_neg hbad)) _) rfl
  case queueNotEmpty =>
    exact exec_configure hn hopen (requestConfigure_queueNotEmpty (hoperand.trans (if_pos hgood)) hheld) rfl
  case accepted =>
    have hconfig := hoperand.trans (if_pos hgood)
    obtain ⟨hrole, hnode, -, hrate, -⟩ := hgood
    obtain ⟨-, -, -, hhost, -⟩ := applyConfig_frame (configOfBytes role node epoch rate wait limit) s
    refine ⟨_, exec_configure hn hopen ?_ hhost, configOfBytes_role hrole .., ?_, rfl, configOfBytes_rate hrate .., rfl, rfl⟩
    · exact (requestConfigure_accepted hconfig (s := { s with host.receive := .idle }) hempty).trans
        (congrArg _ (congrArg _ (applyConfig_receive _ .idle s)))
    · exact ⟨⟨node.toNat, by omega⟩, nodeOf?_eq_some.2 rfl, rfl⟩

end Sys2Proof.Machine
end

section
/-! What a command can do: the ways a host command, a reset, an item of boundary work and an event of the link end, and what
is kept by them all is kept by every command. -/
namespace Sys2Proof.Machine

open Sys2Proof.Claims

/-! ## Doing what is left -/

/-- What taking each item that is ready keeps is kept by doing what is left. -/
theorem settleUpTo_keeps {P : State → Prop} {ready : State → List Work}
    (hwork : ∀ w s n, w ∈ ready s → P s → P (takeWork w { s with choices := n })) (fuel : Nat) (s : State) (h : P s) :
    P (settleUpTo ready fuel s) := by
  induction fuel generalizing s with
  | zero => exact h
  | succ fuel ih =>
    unfold settleUpTo
    split
    · exact h
    · next w rest hready =>
      split
      · exact hwork w s s.choices (by simp [hready]) h
      · exact ih _ (hwork _ s _ (by rw [hready]; exact drawWork_mem w rest s) h)

/-- An item that is commanded is still outstanding when what comes before it has been done. -/
theorem mem_beforeWork {w : Work} {s : State} (h : w ∈ s.due) : w ∈ (beforeWork w s).due := by
  unfold beforeWork
  split
  · next hb =>
    obtain ⟨rfl, -⟩ := hb
    refine settleUpTo_keeps (P := fun u => Work.completion ∈ u.due) (fun v u n hv hu => ?_) _ s h
    have hne : v ≠ .completion := by
      rintro rfl
      simp [schedulerLeft, Work.ofScheduler] at hv
    rw [takeWork_due hne]
    exact (List.mem_erase_of_ne hne.symm).2 hu
  · exact h

/-- What taking an outstanding item keeps is kept before a commanded item and by it. -/
theorem beforeWork_keeps {P : State → Prop}
    (hwork : ∀ w s n, w ∈ s.due → P s → P (takeWork w { s with choices := n })) (w : Work) (s : State) (h : P s) :
    P (beforeWork w s) := by
  unfold beforeWork
  split
  · exact settleUpTo_keeps (fun v u n hv => hwork v u n (mem_due_of_mem_schedulerLeft hv)) _ s h
  · exact h

theorem settle_keeps {P : State → Prop}
    (hwork : ∀ w s n, w ∈ s.due → P s → P (takeWork w { s with choices := n })) (s : State) (h : P s) : P (settle s) :=
  settleUpTo_keeps (fun v u n hv => hwork v u n (mem_due_of_mem_workReady hv)) _ s h

/-! ## The host's commands -/

/-- `s` with another Host Port and other counters. -/
def withHost (host : HostPort) (counters : Counters) (s : State) : State := { s with host := host, counters := counters }

/-- A request was executed, from `s` to `t`: it passed the state check, and `t` is what the rule of its kind gives, Host Port and
counters apart. -/
def Executed (s t : State) : Prop :=
  ∃ kind params h cs h' cs', stateCheck kind s = none
    ∧ t = withHost h' cs' (performRequest kind params (withHost h cs s)).2.2

/-- R140: a request is refused and nothing changes, or it is answered by the rule of its kind. -/
theorem judgeRequest_cases (r : HostRequest) (s : State) :
    (∃ status, judgeRequest r s = refuse status s)
      ∨ ∃ kind, requestKind? r.kind = some kind ∧ lengthSuits kind (r.params.length + 2) = true ∧ stateCheck kind s = none
          ∧ judgeRequest r s = performRequest kind r.params s := by
  unfold judgeRequest
  split
  · exact .inl ⟨_, rfl⟩
  · next kind hk =>
    split
    · exact .inl ⟨_, rfl⟩
    · next hl =>
      split
      · exact .inl ⟨_, rfl⟩
      · next ht => exact .inr ⟨kind, hk, by simpa using hl, ht, rfl⟩

/-- Executing a request touches the Host Port and the counters, or does what the rule of its kind does; a reply is then in
transmission. -/
theorem executeRequest_cases (r : HostRequest) (s : State) :
    (executeRequest r s).host.sending.isSome = true
      ∧ ((∃ h cs, executeRequest r s = withHost h cs s) ∨ Executed s (executeRequest r s)) := by
  refine ⟨rfl, ?_⟩
  rcases judgeRequest_cases r s with ⟨status, e⟩ | ⟨kind, -, -, ht, e⟩
  · refine .inl ⟨(executeRequest r s).host, s.counters, ?_⟩
    simp only [executeRequest, e, refuse]
    rfl
  · refine .inr ⟨kind, r.params, s.host, s.counters, (executeRequest r s).host,
      (performRequest kind r.params s).2.2.counters, ht, ?_⟩
    simp only [executeRequest, e]
    rfl

/-- Taking up a request touches the Host Port and the counters, or executes it; a reply is then in transmission. -/
theorem takeUp_cases (r : HostRequest) (s : State) :
    (takeUp r s).host.sending.isSome = true ∧ ((∃ h cs, takeUp r s = withHost h cs s) ∨ Executed s (takeUp r s)) := by
  unfold takeUp
  split
  · exact executeRequest_cases r s
  · split
    · exact ⟨rfl, .inl ⟨_, s.counters, rfl⟩⟩
    · exact executeRequest_cases r s

theorem Executed.withHost {s t : State} (e : Executed s t) (h : HostPort) (cs : Counters) :
    Executed s (withHost h cs t) := by
  obtain ⟨kind, params, h₁, cs₁, h₂, cs₂, ht, rfl⟩ := e
  exact ⟨kind, params, h₁, cs₁, h, cs, ht, rfl⟩

theorem Executed.of_withHost {s t : State} {h : HostPort} {cs : Counters} (e : Executed (Machine.withHost h cs s) t) :
    Executed s t := by
  obtain ⟨kind, params, h₁, cs₁, h₂, cs₂, ht, rfl⟩ := e
  exact ⟨kind, params, h₁, cs₁, h₂, cs₂, ht, rfl⟩

/-- The host line's own doings from `s` to `t`: at most one request was executed, and after it a reply is in transmission. -/
def HostDone (s t : State) : Prop :=
  (∃ h cs, t = withHost h cs s) ∨ (t.host.sending.isSome = true ∧ Executed s t)

/-- A request that arrives is executed only while none has been. -/
theorem HostDone.arrive {s t : State} (e : HostDone s t) (r : HostRequest) :
    HostDone s (arrive r { t with host.receive := .idle }) := by
  rcases arrive_cases r { t with host.receive := .idle } with ⟨-, ha⟩ | ⟨-, -, ha⟩ | ⟨-, hs, ha⟩
  · rcases e with ⟨h, cs, rfl⟩ | ⟨hsending, e⟩
    · exact .inl ⟨_, _, ha⟩
    · exact .inr ⟨by rw [ha]; exact hsending, by rw [ha]; exact e.withHost _ _⟩
  · rcases e with ⟨h, cs, rfl⟩ | ⟨hsending, e⟩
    · exact .inl ⟨_, _, ha⟩
    · exact .inr ⟨by rw [ha]; exact hsending, by rw [ha]; exact e.withHost _ t.counters⟩
  · rcases e with ⟨h, cs, rfl⟩ | ⟨hsending, e⟩
    · rw [ha]
      obtain ⟨hsending, ⟨h', cs', e⟩ | e⟩ := takeUp_cases r { withHost h cs s with host.receive := .idle }
      · exact .inl ⟨h', cs', e⟩
      · exact .inr ⟨hsending, Executed.of_withHost (h := { h with receive := .idle }) (cs := cs) e⟩
    · rw [show t.host.sending = none from hs] at hsending
      exact absurd hsending (by simp)

theorem HostDone.inFrame {s t : State} (e : HostDone s t) (taken : List Byte) : HostDone s (inFrame taken t) := by
  rcases e with ⟨h, cs, rfl⟩ | ⟨hsending, e⟩
  · exact .inl ⟨_, _, rfl⟩
  · exact .inr ⟨hsending, e.withHost _ t.counters⟩

theorem HostDone.inError {s t : State} (e : HostDone s t) : HostDone s (inError t) := by
  rcases e with ⟨h, cs, rfl⟩ | ⟨hsending, e⟩
  · exact .inl ⟨_, _, rfl⟩
  · exact .inr ⟨hsending, e.withHost _ _⟩

theorem HostDone.refl (s : State) : HostDone s s := .inl ⟨s.host, s.counters, rfl⟩

/-- Characters on HRX execute one request at most: behind it a reply is in transmission. -/
theorem hostDone_takeCharacters (values : List Byte) (s : State) : HostDone s (takeCharacters values s) :=
  takeCharacters_keeps (fun taken _ e => e.inFrame taken) (fun _ e => e.inError) (fun r _ e => e.arrive r) values s (.refl s)

theorem hostDone_takeCharacter (value : Byte) (s : State) : HostDone s (takeCharacter s value) :=
  hostDone_takeCharacters [value] s

theorem hostDone_errorInFrame (s : State) : HostDone s (errorInFrame s) := by
  rcases h : s.host.receive with _ | taken
  · rw [errorInFrame_idle h]
    exact .refl s
  · rw [errorInFrame_inFrame h]
    exact (HostDone.refl s).inError

/-- A request's characters act only in normal running. -/
theorem receiveRequest_cases (r : HostRequest) (s : State) :
    receiveRequest r s = s ∨ (s.phase = .running ∧ HostDone s (receiveRequest r s)) := by
  unfold receiveRequest
  split
  · next hp =>
    refine .inr ⟨hp, ?_⟩
    split
    · exact (HostDone.refl s).arrive r
    · exact hostDone_takeCharacters _ s
  · exact .inl rfl

/-- The end of a reply that is not a RESET's may take up the waiting request. -/
theorem endReply_cases (s : State) :
    (∃ reply, s.host.sending = some reply ∧ reply.resets = true ∧ endReply s = requestReset s)
      ∨ ((∀ reply, s.host.sending = some reply → reply.resets = false) ∧ HostDone s (endReply s)) := by
  unfold endReply
  rcases hs : s.host.sending with _ | reply
  · exact .inr ⟨nofun, .refl s⟩
  · rcases hr : reply.resets
    · refine .inr ⟨?_, ?_⟩
      · rintro _ ⟨⟩
        exact hr
      · simp only [hr, Bool.false_eq_true, if_false]
        split
        · exact .inl ⟨_, s.counters, rfl⟩
        · next w hw =>
          obtain ⟨hsending, ⟨h, cs, e⟩ | e⟩ := takeUp_cases w { s with host := { s.host with sending := none, waiting := none } }
          · exact .inl ⟨h, cs, e⟩
          · exact .inr ⟨hsending, Executed.of_withHost (h := { s.host with sending := none, waiting := none }) (cs := s.counters) e⟩
    · exact .inl ⟨reply, rfl, hr, by simp [hr]⟩

/-! ## All commands -/

/-- All that a command can do. -/
inductive Effect (c : Instr) (s t : State) : Prop
  /-- the Host Port and the counters alone change -/
  | line (h : HostPort) (cs : Counters) (ht : t = withHost h cs s)
  /-- a request is executed (R134) -/
  | executed (hp : s.phase = .running) (he : Executed s t)
  /-- the reset of a RESET takes effect (R164) -/
  | reset (reply : SentReply) (hs : s.host.sending = some reply) (hr : reply.resets = true)
      (hc : c = .resetTakesEffect ∨ c = .replyTransmissionEnd) (ht : t = requestReset s)
  /-- RSTN goes high (R165) -/
  | pinReset (straps : BitVec 2) (hc : c = .pinResetRelease straps) (hp : s.phase = .held)
      (ht : t = resetState .startup straps s)
  /-- RSTN goes low (R165) -/
  | held (ht : t = holdInReset s)
  /-- the start-up interval ends (R170) -/
  | started (hp : s.phase = .startup) (ht : t = { s with phase := .running, host.receive := .idle })
  /-- an item of boundary work is done (R15) -/
  | work (w : Work) (hw : w ∈ s.due) (ht : t = takeWork w (beforeWork w s))
  /-- an event of the link finds nothing to do but the work that is left (R63) -/
  | settled (ht : t = settle s)
  | boundary (hl : (settle s).link.lock = .driving) (ht : t = masterBoundary (settle s))
  | mark (count : Fin 4097) (ht : t = observeMark count.val (settle s))
  | missed (ht : t = missMark (settle s))
  | clock (ht : t = loseClock (settle s))
  | slot (slot : Slot) (hc : c = .slotStart slot) (hstart : canStart slot (settle s) = true)
      (ht : t = startSlot slot (settle s))
  | passEnd (cell : SentCell) (hcell : (settle s).tx.cell = some cell) (position : Nat)
      (ht : t = endCell { settle s with link.position := some position })
  | cell (slot : Slot) (image : List Byte) (hreceiving : (settle s).rx.receiving = some slot)
      (ht : t = finishSlot slot image (settle s))

theorem Effect.none (c : Instr) (s : State) : Effect c s s := .line s.host s.counters rfl

theorem Effect.of_hostDone {c : Instr} {s t : State} (hp : s.phase = .running) (h : HostDone s t) : Effect c s t := by
  rcases h with ⟨h, cs, e⟩ | ⟨-, e⟩
  · exact .line h cs e
  · exact .executed hp e

/-- A command that acts only in normal running, and then on the host line. -/
theorem Effect.of_running {c : Instr} {s : State} {f : State → State} (hf : HostDone s (f s)) :
    ∃ t, (if s.phase = .running then (Host.Outcome.next (f s) : Host.Outcome State Fault Refusal) else .next s) = .next t
      ∧ Effect c s t := by
  split
  · next hp => exact ⟨_, rfl, .of_hostDone hp hf⟩
  · exact ⟨s, rfl, .none c s⟩

/-- A command that names an item of boundary work. -/
theorem Effect.of_commandWork (c : Instr) (w : Work) (s : State) : Effect c s (commandWork w s) := by
  rcases commandWork_cases w s with ⟨hw, e⟩ | ⟨-, e⟩
  · exact .work w hw e
  · rw [e]
    exact .none c s

/-- Every command completes, with one of the effects (log entry 1). -/
theorem exec_effect (c : Instr) (s : State) : ∃ t, exec c s = .next t ∧ Effect c s t := by
  cases hr : requestOf c with
  | some r =>
    refine ⟨_, exec_of_requestOf hr s, ?_⟩
    rcases receiveRequest_cases r s with e | ⟨hp, e⟩
    · rw [e]
      exact .none c s
    · exact .of_hostDone hp e
  | none =>
    cases c with
    | requestReceived frame => exact Effect.of_running (f := takeCharacters frame) (hostDone_takeCharacters frame s)
    | hostFrameError fault =>
      obtain ⟨t, e, ht⟩ := Effect.of_running (c := .hostFrameError fault) (hostDone_errorInFrame s)
      exact ⟨t, by cases fault <;> exact e, ht⟩
    | gapTimeout => exact Effect.of_running (f := errorInFrame) (hostDone_errorInFrame s)
    | leadByte value fault =>
      refine Effect.of_running (f := receiveCharacter value fault) ?_
      cases fault
      · exact hostDone_takeCharacter value s
      · exact hostDone_errorInFrame s
    | replyTransmissionEnd =>
      change ∃ t, execReplyTransmissionEnd s = .next t ∧ _
      unfold execReplyTransmissionEnd
      split
      · next hp =>
        refine ⟨_, rfl, ?_⟩
        rcases endReply_cases s with ⟨reply, hs, hr, e⟩ | ⟨-, e⟩
        · exact .reset reply hs hr (.inr rfl) e
        · exact .of_hostDone hp e
      · exact ⟨s, rfl, .none _ s⟩
    | resetTakesEffect =>
      change ∃ t, execResetTakesEffect s = .next t ∧ _
      unfold execResetTakesEffect
      split
      · exact ⟨s, rfl, .none _ s⟩
      · next reply hs =>
        split
        · next hr => exact ⟨_, rfl, .reset reply hs hr (.inl rfl) rfl⟩
        · exact ⟨s, rfl, .none _ s⟩
    | pinResetAssert => exact ⟨_, rfl, .held rfl⟩
    | pinResetRelease straps =>
      change ∃ t, execPinResetRelease straps s = .next t ∧ _
      unfold execPinResetRelease
      split
      · next hp => exact ⟨_, rfl, .pinReset straps rfl hp rfl⟩
      · exact ⟨s, rfl, .none _ s⟩
    | startupIntervalEnd =>
      change ∃ t, execStartupIntervalEnd s = .next t ∧ _
      unfold execStartupIntervalEnd
      split
      · next hp => exact ⟨_, rfl, .started hp rfl⟩
      · exact ⟨s, rfl, .none _ s⟩
    | masterFrameBoundary =>
      change ∃ t, execMasterFrameBoundary s = .next t ∧ _
      unfold execMasterFrameBoundary
      dsimp only
      split
      · next hl => exact ⟨_, rfl, .boundary hl rfl⟩
      · exact ⟨_, rfl, .settled rfl⟩
    | markObserved count => exact ⟨_, rfl, .mark count rfl⟩
    | missedMark => exact ⟨_, rfl, .missed rfl⟩
    | clockLoss => exact ⟨_, rfl, .clock rfl⟩
    | slotStart slot =>
      change ∃ t, execSlotStart slot s = .next t ∧ _
      unfold execSlotStart
      dsimp only
      split
      · next hstart => exact ⟨_, rfl, .slot slot rfl hstart rfl⟩
      · exact ⟨_, rfl, .settled rfl⟩
    | passEnd =>
      change ∃ t, execPassEnd s = .next t ∧ _
      unfold execPassEnd
      dsimp only
      split
      · exact ⟨_, rfl, .settled rfl⟩
      · next cell hcell =>
        split
        · exact ⟨_, rfl, .passEnd cell hcell _ rfl⟩
        · exact ⟨_, rfl, .settled rfl⟩
    | cellReceived image =>
      change ∃ t, execCellReceived image s = .next t ∧ _
      unfold execCellReceived
      dsimp only
      split
      · exact ⟨_, rfl, .settled rfl⟩
      · next slot hreceiving => exact ⟨_, rfl, .cell slot image hreceiving rfl⟩
    | lifetimeExpiry ticket => exact ⟨_, rfl, .of_commandWork _ _ s⟩
    | ackTimerExpiry ticket => exact ⟨_, rfl, .of_commandWork _ _ s⟩
    | reassemblyTimeout source => exact ⟨_, rfl, .of_commandWork _ _ s⟩
    | mapSwitch => exact ⟨_, rfl, .of_commandWork _ _ s⟩
    | detachCompletion => exact ⟨_, rfl, .of_commandWork _ _ s⟩
    | _ => cases hr

theorem effect_of_exec {c : Instr} {s t : State} (h : exec c s = .next t) : Effect c s t := by
  obtain ⟨u, e, hu⟩ := exec_effect c s
  obtain rfl : u = t := Host.Outcome.next.inj (e.symm.trans h)
  exact hu

end Sys2Proof.Machine
end

section
/-! What no command but those of the host line touches, and the relations that the host line keeps (R131 to R136). -/
namespace Sys2Proof.Machine

open Sys2Proof.Claims Sys2Proof.Safety

/-! ## What requests and the events of the link leave as they were -/

/-- The rule of a request's kind leaves the phase, the Host Port, the draws and the queue of commands alone. -/
@[simp] theorem performRequest_frame (kind : RequestKind) (params : List Byte) (s : State) :
    (performRequest kind params s).2.2.phase = s.phase ∧ (performRequest kind params s).2.2.host = s.host
      ∧ (performRequest kind params s).2.2.choices = s.choices ∧ (performRequest kind params s).2.2.pending = s.pending := by
  cases kind with
  | ident | status | mapRead | peerRead | reset => exact ⟨rfl, rfl, rfl, rfl⟩
  | configure =>
    simp only [performRequest, requestConfigure, refuse]
    (repeat' split) <;> simp
  | attach =>
    simp only [performRequest, requestAttach]
    (repeat' split) <;> simp [startDriving]
  | detach =>
    simp only [performRequest, requestDetach]
    (repeat' split) <;> simp
  | mapStage =>
    simp only [performRequest, requestMapStage, refuse]
    (repeat' split) <;> simp
  | mapCommit =>
    simp only [performRequest, requestMapCommit, commitAtOnce, commitPending, refuse]
    (repeat' split) <;> simp
  | mapWithdraw =>
    simp only [performRequest, requestMapWithdraw, refuse]
    (repeat' split) <;> simp
  | send =>
    simp only [performRequest, requestSend, acceptSend, refuse]
    (repeat' split) <;> simp
  | cancel =>
    simp only [performRequest, requestCancel, cancelRecord, refuse]
    (repeat' split) <;> simp
  | queryTicket =>
    simp only [performRequest, requestQuery, refuse]
    (repeat' split) <;> simp
  | fetchMessage =>
    simp only [performRequest, requestFetchMessage, refuse]
    (repeat' split) <;> simp
  | fetchEvent =>
    simp only [performRequest, requestFetchEvent]
    (repeat' split) <;> simp
  | counters =>
    simp only [performRequest, requestCounters]
    (repeat' split) <;> simp

/-- A lock loss leaves the phase, the host line and the queue of commands alone, if what it enters does. -/
theorem lockLoss_frame (cause : LossCause) {enter : State → State}
    (he : ∀ u, (enter u).phase = u.phase ∧ (enter u).host = u.host ∧ (enter u).pending = u.pending) (s : State) :
    (lockLoss cause enter s).phase = s.phase ∧ (lockLoss cause enter s).host = s.host
      ∧ (lockLoss cause enter s).pending = s.pending := by
  unfold lockLoss
  dsimp only
  split <;> simp [he]

@[simp] theorem lockLoss_takeReference_frame (cause : LossCause) (s : State) :
    (lockLoss cause takeReference s).phase = s.phase ∧ (lockLoss cause takeReference s).host = s.host
      ∧ (lockLoss cause takeReference s).pending = s.pending := lockLoss_frame cause (by simp) s

@[simp] theorem lockLoss_enterSearch_frame (cause : LossCause) (s : State) :
    (lockLoss cause enterSearch s).phase = s.phase ∧ (lockLoss cause enterSearch s).host = s.host
      ∧ (lockLoss cause enterSearch s).pending = s.pending := lockLoss_frame cause (by simp) s

@[simp] theorem observeMark_frame (count : Nat) (s : State) :
    (observeMark count s).phase = s.phase ∧ (observeMark count s).host = s.host
      ∧ (observeMark count s).pending = s.pending := by
  unfold observeMark
  dsimp only
  (repeat' split) <;> simp

@[simp] theorem missMark_frame (s : State) :
    (missMark s).phase = s.phase ∧ (missMark s).host = s.host ∧ (missMark s).pending = s.pending := by
  unfold missMark
  dsimp only
  (repeat' split) <;> simp

@[simp] theorem loseClock_frame (s : State) :
    (loseClock s).phase = s.phase ∧ (loseClock s).host = s.host ∧ (loseClock s).pending = s.pending := by
  unfold loseClock
  (repeat' split) <;> simp

/-- No effect touches the queue of commands. -/
theorem Effect.pending {c : Instr} {s t : State} (h : Effect c s t) : t.pending = s.pending := by
  cases h with
  | line h cs ht => subst ht; rfl
  | executed hp he =>
    obtain ⟨kind, params, h, cs, h', cs', -, rfl⟩ := he
    simp [withHost]
  | reset reply hs hr hc ht => subst ht; rfl
  | pinReset straps hc hp ht => subst ht; rfl
  | held ht => subst ht; rfl
  | started hp ht => subst ht; rfl
  | work w hw ht => simp [ht]
  | settled ht => simp [ht]
  | boundary hl ht => simp [ht]
  | mark count ht => simp [ht]
  | missed ht => simp [ht]
  | clock ht => simp [ht]
  | slot slot hc hstart ht => simp [ht]
  | passEnd cell hcell position ht => simp [ht]
  | cell slot image hreceiving ht => simp [ht]

/-- Settles O2: every command has one of the effects, and none touches the queue. -/
theorem everyCommandCompletes : Obligations.EveryCommandCompletes := by
  intro c s
  obtain ⟨t, e, ht⟩ := exec_effect c s
  exact ⟨t, e, ht.pending⟩

/-! ## The host line -/

theorem hostSound_congr {s t : State} (hp : t.phase = s.phase) (hh : t.host = s.host) (h : hostSound s) : hostSound t := by
  unfold hostSound
  rw [hp, hh]
  exact h

/-- A frame that more characters are to come of is not over (R129, R132). -/
theorem frameOpen_of_collecting {frame : List Byte} (h : judgeFrame frame = .collecting) : frameOpen (.inFrame frame) = true := by
  rcases frame with _ | ⟨l, rest⟩
  · rfl
  · by_cases hl : l.toNat < 2 ∨ 250 < l.toNat
    · rw [judgeFrame_badLength rest hl] at h
      cases h
    · by_cases hlen : rest.length < l.toNat + 2
      · simp only [frameOpen, Bool.and_eq_true, decide_eq_true_iff]
        omega
      · have hlong : ¬(rest.length + 1 < l.toNat + 3) := by omega
        simp only [judgeFrame, param, List.getD_cons_zero, List.length_cons, Config.longestBody, if_neg hl, if_neg hlong] at h
        split at h <;> cases h

/-- In normal running a request that is taken up leaves its reply kept and in transmission (R134, R135). -/
theorem hostSound_takeUp {r : HostRequest} {s : State} (hp : s.phase = .running) (hopen : frameOpen s.host.receive = true) :
    hostSound (takeUp r s) := by
  have hexec : hostSound (executeRequest r s) := by
    have hhost : (judgeRequest r s).2.2.host = s.host ∧ (judgeRequest r s).2.2.phase = s.phase := by
      rcases judgeRequest_cases r s with ⟨status, e⟩ | ⟨kind, -, -, -, e⟩ <;> rw [e] <;> simp [refuse]
    refine ⟨fun _ => rfl, by simp [executeRequest, beginReply], ?_, fun h => absurd (hhost.2.trans hp) h⟩
    simpa [executeRequest, beginReply, hhost.1] using hopen
  unfold takeUp
  split
  · exact hexec
  · next k hk =>
    split
    · exact ⟨fun _ => rfl, by simp [beginReply, hk], hopen, fun h => absurd hp h⟩
    · exact hexec

/-- In normal running a sound host line. -/
def runningSound (s : State) : Prop := s.phase = .running ∧ hostSound s

theorem runningSound_inFrame {taken : List Byte} {s : State} (hopen : frameOpen (.inFrame taken) = true)
    (h : runningSound s) : runningSound (inFrame taken s) := by
  obtain ⟨hp, hwait, hkept, -, -⟩ := h
  exact ⟨hp, hwait, hkept, hopen, fun hn => absurd hp hn⟩

theorem runningSound_inError {s : State} (h : runningSound s) : runningSound (inError s) := by
  obtain ⟨hp, hwait, hkept, -, -⟩ := h
  exact ⟨hp, hwait, hkept, rfl, fun hn => absurd hp hn⟩

theorem runningSound_arrive {s : State} (h : runningSound s) (r : HostRequest) :
    runningSound (arrive r { s with host.receive := .idle }) := by
  obtain ⟨hp, hwait, hkept, -, -⟩ := h
  rcases arrive_cases r { s with host.receive := .idle } with ⟨-, e⟩ | ⟨-, hs, e⟩ | ⟨-, -, e⟩
  · rw [e]
    exact ⟨hp, hwait, hkept, rfl, fun hn => absurd hp hn⟩
  · rw [e]
    exact ⟨hp, fun _ => hs, hkept, rfl, fun hn => absurd hp hn⟩
  · rw [e]
    have hphase : (takeUp r { s with host.receive := .idle }).phase = .running := by
      obtain ⟨-, ⟨h, cs, e⟩ | ⟨kind, params, h, cs, h', cs', -, e⟩⟩ := takeUp_cases r { s with host.receive := .idle }
      · rw [e]
        exact hp
      · rw [e]
        simpa [withHost] using hp
    exact ⟨hphase, hostSound_takeUp hp rfl⟩

theorem runningSound_takeCharacter {s : State} (h : runningSound s) (value : Byte) : runningSound (takeCharacter s value) := by
  rcases takeCharacter_cases s value with ⟨-, -, e⟩ | ⟨-, -, e⟩ | ⟨taken, -, ⟨hj, e⟩ | ⟨f, -, e⟩ | ⟨r, -, e⟩⟩
  · exact e ▸ runningSound_inFrame rfl h
  · rwa [e]
  · exact e ▸ runningSound_inFrame (frameOpen_of_collecting hj) h
  · exact e ▸ runningSound_inError h
  · exact e ▸ runningSound_arrive h r

theorem runningSound_takeCharacters {s : State} (h : runningSound s) (values : List Byte) :
    runningSound (takeCharacters values s) := by
  induction values generalizing s with
  | nil => exact h
  | cons v rest ih => exact ih (runningSound_takeCharacter h v)

theorem runningSound_errorInFrame {s : State} (h : runningSound s) : runningSound (errorInFrame s) := by
  rcases hr : s.host.receive with _ | taken
  · rwa [errorInFrame_idle hr]
  · rw [errorInFrame_inFrame hr]
    exact runningSound_inError h

theorem hostSound_receiveRequest {s : State} (h : hostSound s) (r : HostRequest) : hostSound (receiveRequest r s) := by
  unfold receiveRequest
  split
  · next hp =>
    split
    · exact (runningSound_arrive ⟨hp, h⟩ r).2
    · exact (runningSound_takeCharacters ⟨hp, h⟩ _).2
  · exact h

/-- A reset leaves the host line at rest (R139). -/
theorem hostSound_resetState (phase : Phase) (rate : BitVec 2) (s : State) : hostSound (resetState phase rate s) :=
  ⟨nofun, rfl, rfl, fun _ => ⟨rfl, rfl⟩⟩

/-- The end of a reply frees the line, and a waiting request is taken up there (R136). -/
theorem hostSound_endReply {s : State} (hp : s.phase = .running) (h : hostSound s) : hostSound (endReply s) := by
  obtain ⟨-, -, hopen, -⟩ := id h
  unfold endReply
  split
  · exact h
  · split
    · exact hostSound_resetState ..
    · dsimp only
      split
      · next hw => exact ⟨fun hw' => by simp [hw] at hw', rfl, hopen, fun hn => absurd hp hn⟩
      · exact hostSound_takeUp hp hopen

/-- What acts only in normal running. -/
theorem hostSound_of_running {s t : State} {f : State → State} (h : hostSound s)
    (hf : s.phase = .running → hostSound (f s))
    (e : (if s.phase = .running then (Host.Outcome.next (f s) : Host.Outcome State Fault Refusal) else .next s) = .next t) :
    hostSound t := by
  split at e
  · next hp => exact Host.Outcome.next.inj e ▸ hf hp
  · exact Host.Outcome.next.inj e ▸ h

/-- The commands that neither the host line nor a reset knows leave both alone. -/
def leavesHost : Instr → Bool
  | .lifetimeExpiry _ | .ackTimerExpiry _ | .reassemblyTimeout _ | .mapSwitch | .detachCompletion => true
  | c => settlesFirst c

theorem exec_host_frame {c : Instr} {s t : State} (hc : leavesHost c = true) (h : exec c s = .next t) :
    t.phase = s.phase ∧ t.host = s.host := by
  cases c with
  | masterFrameBoundary =>
    change execMasterFrameBoundary s = _ at h
    unfold execMasterFrameBoundary at h
    dsimp only at h
    split at h <;> cases h <;> simp
  | markObserved count => cases h; simp
  | missedMark => cases h; simp
  | clockLoss => cases h; simp
  | slotStart slot =>
    change execSlotStart slot s = _ at h
    unfold execSlotStart at h
    dsimp only at h
    split at h <;> cases h <;> simp
  | passEnd =>
    change execPassEnd s = _ at h
    unfold execPassEnd at h
    dsimp only at h
    (repeat' split at h) <;> cases h <;> simp
  | cellReceived image =>
    change execCellReceived image s = _ at h
    unfold execCellReceived at h
    dsimp only at h
    split at h <;> cases h <;> simp
  | lifetimeExpiry ticket => cases h; simp
  | ackTimerExpiry ticket => cases h; simp
  | reassemblyTimeout source => cases h; simp
  | mapSwitch => cases h; simp
  | detachCompletion => cases h; simp
  | _ => cases hc

/-- Settles O59: the host line's own commands keep its relations, a reset leaves it at rest, and no other command touches it. -/
theorem hostLineStaysSound : Obligations.HostLineStaysSound := by
  intro c s t h e
  cases hr : requestOf c with
  | some r =>
    rw [exec_of_requestOf hr] at e
    exact Host.Outcome.next.inj e ▸ hostSound_receiveRequest h r
  | none =>
    cases c with
    | requestReceived frame =>
      exact hostSound_of_running (f := takeCharacters frame) h (fun hp => (runningSound_takeCharacters ⟨hp, h⟩ frame).2) e
    | hostFrameError fault =>
      exact hostSound_of_running (f := errorInFrame) h (fun hp => (runningSound_errorInFrame ⟨hp, h⟩).2)
        (by cases fault <;> exact e)
    | gapTimeout => exact hostSound_of_running (f := errorInFrame) h (fun hp => (runningSound_errorInFrame ⟨hp, h⟩).2) e
    | leadByte value fault =>
      refine hostSound_of_running (f := receiveCharacter value fault) h (fun hp => ?_) e
      cases fault
      · exact (runningSound_takeCharacter ⟨hp, h⟩ value).2
      · exact (runningSound_errorInFrame ⟨hp, h⟩).2
    | replyTransmissionEnd => exact hostSound_of_running (f := endReply) h (fun hp => hostSound_endReply hp h) e
    | resetTakesEffect =>
      change execResetTakesEffect s = _ at e
      unfold execResetTakesEffect at e
      (repeat' split at e) <;> cases e
      · exact h
      · exact hostSound_resetState ..
      · exact h
    | pinResetAssert =>
      cases e
      exact ⟨nofun, rfl, rfl, fun _ => ⟨rfl, rfl⟩⟩
    | pinResetRelease straps =>
      change execPinResetRelease straps s = _ at e
      unfold execPinResetRelease at e
      split at e <;> cases e
      · exact hostSound_resetState ..
      · exact h
    | startupIntervalEnd =>
      change execStartupIntervalEnd s = _ at e
      unfold execStartupIntervalEnd at e
      split at e <;> cases e
      · obtain ⟨hwait, hkept, -, -⟩ := h
        exact ⟨hwait, hkept, rfl, fun hn => absurd rfl hn⟩
      · exact h
    | masterFrameBoundary | markObserved _ | missedMark | clockLoss | slotStart _ | passEnd | cellReceived _ | lifetimeExpiry _
    | ackTimerExpiry _ | reassemblyTimeout _ | mapSwitch | detachCompletion =>
      obtain ⟨hp, hh⟩ := exec_host_frame rfl e
      exact hostSound_congr hp hh h
    | _ => cases hr

end Sys2Proof.Machine
end

section
/-! The receive side's accounts (laws 3, 4 and 9): what each step of reassembly does to the places, the blocks and the owed
acknowledgements, and that every command keeps them. -/
namespace Sys2Proof.Machine

open Sys2Proof.Claims Sys2Proof.Safety

/-! ## Counting over the contexts -/

theorem sum_map_set {α : Type} (f : α → Nat) (l : List α) (i : Nat) (hi : i < l.length) (a : α) :
    ((l.set i a).map f).sum + f l[i] = (l.map f).sum + f a := by
  induction l generalizing i with
  | nil => cases hi
  | cons x rest ih =>
    cases i with
    | zero => simp only [List.set_cons_zero, List.map_cons, List.sum_cons, List.getElem_cons_zero]; omega
    | succ i =>
      have := ih i (by simpa using hi)
      simp only [List.set_cons_succ, List.map_cons, List.sum_cons, List.getElem_cons_succ]
      omega

theorem countP_eq_sum {α : Type} (p : α → Bool) (l : List α) : l.countP p = (l.map fun x => (p x).toNat).sum := by
  induction l with
  | nil => rfl
  | cons x rest ih => cases h : p x <;> simp [h, ih, Nat.add_comm]

/-- Mailbox places that a context holds (R104). -/
def Context.places (c : Context) : Nat := c.isAssembling.toNat

/-- Replacing a context moves a sum over the contexts by what the two contexts differ. -/
theorem contexts_sum_set (f : Context → Nat) (contexts : Vector Context 12) (n : Node) (c : Context) :
    ((contexts.set n.val c).toList.map f).sum + f (contexts.get n) = (contexts.toList.map f).sum + f c := by
  have := sum_map_set f contexts.toList n.val (by simp) c
  simpa [Vector.get_eq_getElem, Vector.toList_set] using this

theorem assemblingCount_eq (s : State) : assemblingCount s = (s.rx.contexts.toList.map Context.places).sum :=
  countP_eq_sum Context.isAssembling s.rx.contexts.toList

theorem all_set {α : Type} {p : α → Bool} {l : List α} (i : Nat) {a : α} (h : l.all p = true) (ha : p a = true) :
    (l.set i a).all p = true := by
  rw [List.all_eq_true] at h ⊢
  intro x hx
  rcases List.mem_or_eq_of_mem_set hx with hx | rfl
  · exact h x hx
  · exact ha

/-! ## The rules -/

/-- The accounts rest on the mailbox, the contexts, the free blocks and the owed acknowledgements alone. -/
theorem receiveAccounts_congr {s t : State} (hmailbox : t.rx.mailbox = s.rx.mailbox) (hcontexts : t.rx.contexts = s.rx.contexts)
    (hblocks : t.rx.freeBlocks = s.rx.freeBlocks) (howed : t.rx.owed = s.rx.owed) (h : receiveAccounts s) :
    receiveAccounts t := by
  unfold receiveAccounts inboundPlaces inboundBlocks contextsSound owedOnce assemblingCount
  rw [hmailbox, hcontexts, hblocks, howed]
  exact h

theorem receiveAccounts_of_rx {s t : State} (hrx : t.rx = s.rx) (h : receiveAccounts s) : receiveAccounts t :=
  receiveAccounts_congr (by rw [hrx]) (by rw [hrx]) (by rw [hrx]) (by rw [hrx]) h

/-- The blocks that the mailbox holds (R101). -/
def mailboxBlocks (s : State) : Nat := (s.rx.mailbox.map Entry.blocks).sum

/-- One context is replaced: the accounts hold on if the places and the blocks balance. -/
theorem receiveAccounts_set {s t : State} {n : Node} {c : Context} (h : receiveAccounts s)
    (hcontexts : t.rx.contexts = s.rx.contexts.set n.val c) (hsound : assemblySound c = true)
    (hplaces : t.rx.mailbox.length + assemblingCount s + c.places ≤ 16 + (s.rx.contexts.get n).places)
    (hblocks : t.rx.freeBlocks + mailboxBlocks t + c.blocks
      = s.rx.freeBlocks + mailboxBlocks s + (s.rx.contexts.get n).blocks)
    (howed : owedOnce t) : receiveAccounts t := by
  obtain ⟨-, hsum, hall, -⟩ := h
  have hp := contexts_sum_set Context.places s.rx.contexts n c
  have hb := contexts_sum_set Context.blocks s.rx.contexts n c
  rw [assemblingCount_eq] at hplaces
  unfold mailboxBlocks at hblocks
  refine ⟨?_, ?_, ?_, howed⟩
  · rw [inboundPlaces, assemblingCount_eq, hcontexts]
    omega
  · rw [inboundBlocks, hcontexts]
    omega
  · rw [contextsSound, hcontexts, Vector.toList_set]
    exact all_set _ hall hsound

/-- R81: an entry for a source takes the place of any other for it. -/
theorem owedOnce_append {owed : List Owed} (o : Owed) (h : (owed.map fun o => o.source).Nodup) :
    (((owed.filter fun q => q.source != o.source) ++ [o]).map fun o => o.source).Nodup := by
  have hsub : ((owed.filter fun q => q.source != o.source).map fun o => o.source).Nodup :=
    h.sublist (List.filter_sublist.map _)
  rw [List.map_append, List.map_singleton, List.nodup_append]
  refine ⟨hsub, by simp, ?_⟩
  simp only [List.mem_map, List.mem_filter, List.mem_singleton]
  rintro _ ⟨q, ⟨-, hq⟩, rfl⟩ _ rfl
  simpa using hq

theorem receiveAccounts_owed_sublist {s t : State} (h : receiveAccounts s) (hmailbox : t.rx.mailbox = s.rx.mailbox)
    (hcontexts : t.rx.contexts = s.rx.contexts) (hblocks : t.rx.freeBlocks = s.rx.freeBlocks)
    (howed : t.rx.owed.Sublist s.rx.owed) : receiveAccounts t := by
  obtain ⟨hplaces, hsum, hall, honce⟩ := h
  unfold receiveAccounts inboundPlaces inboundBlocks contextsSound assemblingCount
  rw [hmailbox, hcontexts, hblocks]
  exact ⟨hplaces, hsum, hall, honce.sublist (howed.map _)⟩

/-! ## Contexts -/

theorem receiveAccounts_abandonContext {s : State} (h : receiveAccounts s) (n : Node) : receiveAccounts (abandonContext n s) := by
  obtain ⟨hplaces, -, -, howed⟩ := id h
  refine receiveAccounts_set h rfl rfl ?_ ?_ howed
  · change s.rx.mailbox.length + assemblingCount s + 0 ≤ _
    omega
  · change s.rx.freeBlocks + (s.rx.contexts.get n).blocks + mailboxBlocks s + 0 = _
    omega

theorem receiveAccounts_timeOutContext {s : State} (h : receiveAccounts s) (n : Node) : receiveAccounts (timeOutContext n s) := by
  unfold timeOutContext
  dsimp only
  (repeat' split)
  · exact receiveAccounts_of_rx (countBreak_rx _) (receiveAccounts_abandonContext h n)
  · exact receiveAccounts_abandonContext h n
  · exact h

theorem receiveAccounts_oweAck {s : State} (h : receiveAccounts s) (n : Node) (k : Nibble) : receiveAccounts (oweAck n k s) := by
  obtain ⟨hplaces, hblocks, hall, howed⟩ := h
  exact ⟨hplaces, hblocks, hall, owedOnce_append ⟨n, k, _⟩ howed⟩

/-- A context that holds nothing goes DISCARDING or IDLE. -/
theorem receiveAccounts_discardContext {s : State} (h : receiveAccounts s) {n : Node}
    (hold : (s.rx.contexts.get n).isAssembling = false) (last : Bool) : receiveAccounts (discardContext n last s) := by
  obtain ⟨hplaces, -, -, howed⟩ := id h
  have hnone : (s.rx.contexts.get n).blocks = 0 ∧ (s.rx.contexts.get n).places = 0 := by
    rcases hc : s.rx.contexts.get n <;> simp_all [Context.isAssembling, Context.blocks, Context.places]
  obtain ⟨hb, hp⟩ := hnone
  have hnew : ∀ l : Bool, assemblySound (if l then .idle else .discarding 0) = true
      ∧ (if l then .idle else .discarding 0 : Context).places = 0
      ∧ (if l then .idle else .discarding 0 : Context).blocks = 0 := by decide
  obtain ⟨hsound, hp', hb'⟩ := hnew last
  refine receiveAccounts_set h rfl hsound ?_ ?_ howed
  · rw [hp', hp]
    exact hplaces
  · rw [hb', hb]
    rfl

/-- A message completes: its context is empty of it and its entry holds the blocks (R109). -/
theorem receiveAccounts_completeMessage {s u : State} {n : Node} {a : Assembly} (h : receiveAccounts s)
    (hcontexts : u.rx.contexts = s.rx.contexts) (hmailbox : u.rx.mailbox = s.rx.mailbox) (howed : u.rx.owed = s.rx.owed)
    (hplaces : s.rx.mailbox.length + 1 + assemblingCount s ≤ 16 + (s.rx.contexts.get n).places)
    (hblocks : u.rx.freeBlocks + blocksFor a.bytes.length = s.rx.freeBlocks + (s.rx.contexts.get n).blocks) :
    receiveAccounts (completeMessage n a u) := by
  obtain ⟨-, -, -, honce⟩ := id h
  rw [owedOnce, ← howed] at honce
  have hlength : (completeMessage n a u).rx.mailbox.length = s.rx.mailbox.length + 1 := by
    unfold completeMessage
    dsimp only
    split <;> simp [oweAck, setContext, hmailbox]
  have hentries : (completeMessage n a u).rx.freeBlocks = u.rx.freeBlocks
      ∧ mailboxBlocks (completeMessage n a u) = mailboxBlocks s + blocksFor a.bytes.length := by
    unfold completeMessage mailboxBlocks
    dsimp only
    split <;> simp [oweAck, setContext, hmailbox, Entry.blocks]
  obtain ⟨hfree, hentries⟩ := hentries
  refine receiveAccounts_set (c := .idle) (n := n) h ?_ rfl ?_ ?_ ?_
  · unfold completeMessage
    dsimp only
    split <;> simp [oweAck, setContext, hcontexts]
  · rw [hlength]
    exact hplaces
  · rw [hfree, hentries]
    change _ + 0 = _
    omega
  · unfold completeMessage
    dsimp only
    split
    · exact owedOnce_append ⟨n, a.number, _⟩ honce
    · exact honce

/-! ## Cells -/

/-- What the checks on an image make sure of for reassembly (R26). -/
def cellSound (c : Cell) : Prop :=
  c.payload.length = 16 ∧ c.total.toNat ≤ 128 ∧ (c.first = true ↔ c.index.toNat = 0)
    ∧ (c.last = true ↔ c.index.toNat + 1 = cellCount c.total.toNat)

theorem cellSound_of_validCell {own : Option Node} {slot : Slot} {image : List Byte} (h : validCell own slot image) :
    cellSound (readCell image) := by
  obtain ⟨-, -, -, -, -, -, -, htotal, hfirst, hlast, -⟩ := h
  have := cells_pos (readCell image).total.toNat
  refine ⟨rfl, htotal, hfirst, hlast.trans ?_⟩
  rw [cellCount_eq_cells]
  omega

/-- R20: a message of `k` whole cells and one more cell that is its last has its whole length. -/
theorem length_of_last {total k : Nat} (h : k + 1 = cellCount total) : 16 * k + cellShare total k = total := by
  unfold cellCount blocksFor at h
  unfold cellShare
  split at h <;> omega

theorem length_of_not_last {total k : Nat} (h : k + 1 < cellCount total) : cellShare total k = 16 := by
  unfold cellCount blocksFor at h
  unfold cellShare
  split at h <;> omega

theorem cellBytesOf_length {c : Cell} (h : c.payload.length = 16) (k : Nat) :
    (cellBytesOf c k).length = cellShare c.total.toNat k := by
  simp only [cellBytesOf, List.length_take, h, cellShare]
  omega

/-- A FIRST cell that finds its context IDLE (R104, R105). -/
theorem receiveAccounts_newMessage {s : State} (h : receiveAccounts s) {n : Node} {c : Cell} (hc : cellSound c)
    (hindex : c.index.toNat = 0) (hidle : s.rx.contexts.get n = .idle) : receiveAccounts (newMessage n c s) := by
  obtain ⟨hpayload, htotal, -, hlast⟩ := hc
  obtain ⟨-, -, -, howed⟩ := id h
  unfold newMessage
  split
  · next hroom =>
    obtain ⟨hplace, hblocks⟩ := (hasRoom_iff _ _).1 hroom
    rw [← blocksFor_eq_blocks] at hblocks
    have hbytes := cellBytesOf_length hpayload 0
    dsimp only
    split
    · next hl =>
      have hlen := length_of_last (hindex ▸ hlast.1 hl)
      refine receiveAccounts_completeMessage h rfl rfl rfl ?_ ?_
      · rw [hidle]
        change _ ≤ 16 + 0
        omega
      · change s.rx.freeBlocks - blocksFor c.total.toNat + blocksFor (cellBytesOf c 0).length = _
        rw [hidle, hbytes, show cellShare c.total.toNat 0 = c.total.toNat by omega]
        change _ = _ + 0
        omega
    · next hl =>
      have hne : c.index.toNat + 1 ≠ cellCount c.total.toNat := mt hlast.2 hl
      have hpos := cells_pos c.total.toNat
      rw [← cellCount_eq_cells] at hpos
      have hmore : 0 + 1 < cellCount c.total.toNat := by omega
      have hshare := length_of_not_last hmore
      refine receiveAccounts_set h rfl ?_ ?_ ?_ howed
      · simp only [assemblySound, Bool.and_eq_true, beq_iff_eq, decide_eq_true_iff, hbytes]
        omega
      · rw [hidle]
        change s.rx.mailbox.length + assemblingCount s + 1 ≤ 16 + 0
        omega
      · rw [hidle]
        change s.rx.freeBlocks - blocksFor c.total.toNat + mailboxBlocks s + blocksFor c.total.toNat = _ + 0
        omega
  · dsimp only
    refine receiveAccounts_discardContext ?_ ?_ c.last
    · exact receiveAccounts_congr (by split <;> rfl) (by split <;> rfl) (by split <;> rfl) (by split <;> rfl) h
    · split <;> exact hidle ▸ rfl

theorem receiveAccounts_firstCell {s : State} (h : receiveAccounts s) (n : Node) {c : Cell} (hc : cellSound c)
    (hindex : c.index.toNat = 0) : receiveAccounts (firstCell n c s) := by
  unfold firstCell
  generalize hu : (if (s.rx.contexts.get n).isIdle then s else countBreak (abandonContext n s)) = u
  obtain ⟨hacc, hidle⟩ : receiveAccounts u ∧ u.rx.contexts.get n = .idle := by
    rw [← hu]
    split
    · next hi =>
      refine ⟨h, ?_⟩
      rcases hc' : s.rx.contexts.get n <;> simp_all [Context.isIdle]
    · exact ⟨receiveAccounts_of_rx (countBreak_rx _) (receiveAccounts_abandonContext h n),
        by simp [abandonContext, setContext, Vector.get_eq_getElem]⟩
  dsimp only
  split
  · refine receiveAccounts_discardContext ?_ (by exact hidle ▸ rfl) c.last
    refine receiveAccounts_oweAck ?_ n c.number
    exact receiveAccounts_of_rx rfl hacc
  · exact receiveAccounts_newMessage hacc hc hindex hidle

theorem receiveAccounts_laterCell {s : State} (h : receiveAccounts s) (n : Node) {c : Cell} (hc : cellSound c) :
    receiveAccounts (laterCell n c s) := by
  obtain ⟨hpayload, htotal, -, hlast⟩ := hc
  obtain ⟨hplaces, -, hall, howed⟩ := id h
  unfold laterCell
  split
  · exact receiveAccounts_of_rx (countBreak_rx s) h
  · next frames hd => exact receiveAccounts_discardContext h (hd ▸ rfl) c.last
  · next a ha =>
    have hsound : assemblySound (.assembling a) = true := by
      rw [contextsSound, List.all_eq_true] at hall
      exact hall _ (ha ▸ by simp [Vector.get_eq_getElem])
    simp only [assemblySound, Bool.and_eq_true, beq_iff_eq, decide_eq_true_iff] at hsound
    obtain ⟨⟨hlen, hnext⟩, hmax⟩ := hsound
    split
    · next hfits =>
      simp only [Assembly.accepts, Bool.and_eq_true, beq_iff_eq] at hfits
      obtain ⟨⟨⟨⟨hindex, htot⟩, -⟩, -⟩, -⟩ := hfits
      have hbytes : (a.bytes ++ cellBytesOf c a.nextIndex).length = 16 * a.nextIndex + cellShare a.total a.nextIndex := by
        rw [List.length_append, hlen, cellBytesOf_length hpayload, htot]
      rw [hindex, htot] at hlast
      dsimp only
      split
      · next hl =>
        refine receiveAccounts_completeMessage h rfl rfl rfl ?_ ?_
        · rw [ha]
          change _ ≤ 16 + 1
          omega
        · dsimp only
          rw [hbytes, length_of_last (hlast.1 hl), ha]
          rfl
      · next hl =>
        have hne : a.nextIndex + 1 ≠ cellCount a.total := mt hlast.2 hl
        have hmore : a.nextIndex + 1 < cellCount a.total := by omega
        refine receiveAccounts_set h rfl ?_ ?_ ?_ howed
        · simp only [assemblySound, Bool.and_eq_true, beq_iff_eq, decide_eq_true_iff, hbytes, length_of_not_last hmore]
          omega
        · rw [ha]
          change s.rx.mailbox.length + assemblingCount s + 1 ≤ 16 + 1
          omega
        · rw [ha]
          rfl
    · exact receiveAccounts_of_rx (countBreak_rx _) (receiveAccounts_abandonContext h n)

theorem receiveAccounts_dataStep {s : State} (h : receiveAccounts s) (n : Node) {c : Cell} (hc : cellSound c) :
    receiveAccounts (dataStep n c s) := by
  unfold dataStep
  split
  · next hf => exact receiveAccounts_firstCell h n hc (hc.2.2.1.1 hf)
  · exact receiveAccounts_laterCell h n hc

theorem receiveAccounts_epochStep {s : State} (h : receiveAccounts s) (n : Node) (e : Byte) :
    receiveAccounts (epochStep n e s) := by
  unfold epochStep
  dsimp only
  split
  · exact h
  · have hforgotten := receiveAccounts_abandonContext (n := n) (receiveAccounts_owed_sublist (t := { s with
        rx.peers := s.rx.peers.set n.val { epoch := some e, lastAccepted := none }
        rx.owed := s.rx.owed.filter fun o => o.source != n }) h rfl rfl rfl List.filter_sublist)
    split
    · exact hforgotten
    · exact receiveAccounts_of_rx (by simp) hforgotten

/-- The acknowledgement field of a good cell is applied if it is a notice for this part (R31). -/
def noticeStep (n : Node) (c : Cell) (s : State) : State := if carriesNotice c s then applyNotice n c.ackNumber s else s

/-- R29 to R32: a good cell is counted, its epoch and its notice are taken, and its content follows. -/
theorem handOff_eq (n : Node) (c : Cell) (s : State) :
    handOff n c s
      = contentStep n c (noticeStep n c (epochStep n c.epoch { s with counters.good := up s.counters.good })) := by
  rw [← bump_eq_up]
  rfl

@[simp] theorem noticeStep_rx (n : Node) (c : Cell) (s : State) : (noticeStep n c s).rx = s.rx := by
  unfold noticeStep
  split <;> simp

theorem receiveAccounts_contentStep {s : State} (h : receiveAccounts s) (n : Node) {c : Cell} (hc : cellSound c) :
    receiveAccounts (contentStep n c s) := by
  unfold contentStep
  (repeat' split)
  · exact receiveAccounts_congr (by simp [controlStep]) (by simp [controlStep]) (by simp [controlStep]) (by simp [controlStep]) h
  · exact h
  · exact receiveAccounts_dataStep h n hc
  · exact h

theorem receiveAccounts_handOff {s : State} (h : receiveAccounts s) (n : Node) {c : Cell} (hc : cellSound c) :
    receiveAccounts (handOff n c s) := by
  rw [handOff_eq]
  refine receiveAccounts_contentStep (receiveAccounts_of_rx (noticeStep_rx _ _ _) (receiveAccounts_epochStep ?_ n c.epoch)) n hc
  exact receiveAccounts_of_rx rfl h

theorem receiveAccounts_finishSlot {s : State} (h : receiveAccounts s) (slot : Slot) (image : List Byte) :
    receiveAccounts (finishSlot slot image s) := by
  have hjudged : receiveAccounts (judgeImage slot image (sampled slot s)) := by
    have hsampled : receiveAccounts (sampled slot s) := receiveAccounts_congr rfl rfl rfl rfl h
    unfold judgeImage
    dsimp only
    split
    · exact receiveAccounts_of_rx rfl hsampled
    · split
      · exact receiveAccounts_of_rx rfl hsampled
      · next hv =>
        rw [Bool.not_eq_true, Bool.not_eq_false', validImage_iff] at hv
        split
        · exact receiveAccounts_of_rx rfl hsampled
        · split
          · exact receiveAccounts_of_rx rfl hsampled
          · exact receiveAccounts_handOff hsampled _ (cellSound_of_validCell hv)
  change receiveAccounts (if slot.val = 0 then decidePermission (judgeImage slot image (sampled slot s)) else
    judgeImage slot image (sampled slot s))
  split
  · exact receiveAccounts_of_rx (by simp) hjudged
  · exact hjudged

/-! ## Boundaries -/

/-- A boundary lets the contexts age and touches nothing else of the Receive Unit (R110). -/
theorem announceBoundary_rx_any (begins : Bool) (s : State) :
    (announceBoundary begins s).rx = { s.rx with contexts := Vector.ofFn fun n => (s.rx.contexts.get n).tick } := by
  unfold announceBoundary
  dsimp only
  split <;> simp

/-- A sum over the contexts does not move while no context changes what it adds. -/
theorem contexts_map_tick {α : Type} {f : Context → α} (hf : ∀ c, f c.tick = f c) (contexts : Vector Context 12) :
    (Vector.ofFn fun n => (contexts.get n).tick).toList.map f = contexts.toList.map f := by
  apply List.ext_getElem
  · simp
  · intro i hi _
    simp [hf, Vector.get_eq_getElem]

theorem receiveAccounts_announceBoundary {s : State} (h : receiveAccounts s) (begins : Bool) :
    receiveAccounts (announceBoundary begins s) := by
  obtain ⟨hplaces, hblocks, hall, howed⟩ := h
  have hrx := announceBoundary_rx_any begins s
  have hsound : ∀ c, assemblySound c.tick = assemblySound c := by intro c; cases c <;> rfl
  refine ⟨?_, ?_, ?_, ?_⟩
  · rw [inboundPlaces, assemblingCount_eq, hrx]
    rw [inboundPlaces, assemblingCount_eq] at hplaces
    rwa [contexts_map_tick (f := Context.places) (by intro c; cases c <;> rfl)]
  · rw [inboundBlocks, hrx]
    rwa [contexts_map_tick (f := Context.blocks) (by intro c; cases c <;> rfl)]
  · rw [contextsSound, hrx, List.all_eq_true]
    rw [contextsSound, List.all_eq_true] at hall
    intro c hc
    obtain ⟨n, rfl⟩ : ∃ n, (s.rx.contexts.get n).tick = c := by simpa [List.mem_ofFn] using hc
    rw [hsound]
    exact hall _ (by simp [Vector.get_eq_getElem])
  · rw [owedOnce, hrx]
    exact howed

theorem receiveAccounts_completeDetach {s : State} (h : receiveAccounts s) : receiveAccounts (completeDetach s) := by
  obtain ⟨hplaces, hblocks, -, -⟩ := h
  have hrx : (completeDetach s).rx = { s.rx with
      freeBlocks := s.rx.freeBlocks + (s.rx.contexts.toList.map Context.blocks).sum
      contexts := Vector.replicate 12 .idle
      owed := []
      controlRecord := none
      receiving := none } := by
    simp [completeDetach, clearForDetach, abandonAll]
  refine ⟨?_, ?_, ?_, ?_⟩
  · rw [inboundPlaces, assemblingCount_eq, hrx]
    change s.rx.mailbox.length + 0 ≤ 16
    omega
  · rw [inboundBlocks, hrx]
    change s.rx.freeBlocks + _ + (s.rx.mailbox.map Entry.blocks).sum + 0 = 96
    omega
  · rw [contextsSound, hrx]
    rfl
  · rw [owedOnce, hrx]
    exact List.nodup_nil

theorem receiveAccounts_takeWork (w : Work) {s : State} (h : receiveAccounts s) : receiveAccounts (takeWork w s) := by
  unfold takeWork doWork
  split
  · exact receiveAccounts_of_rx (by simp) h
  · exact receiveAccounts_of_rx (by simp) h
  · refine receiveAccounts_timeOutContext ?_ _
    exact receiveAccounts_of_rx rfl h
  · exact receiveAccounts_of_rx (by simp) h
  · refine receiveAccounts_completeDetach ?_
    exact receiveAccounts_of_rx rfl h

theorem receiveAccounts_settle {s : State} (h : receiveAccounts s) : receiveAccounts (settle s) :=
  settle_keeps (fun w u _ _ hu => receiveAccounts_takeWork w (receiveAccounts_of_rx (s := u) rfl hu)) s h

/-! ## Marks and lock -/

theorem receiveAccounts_countBoundary {s : State} (h : receiveAccounts s) (lock : LockState) (missed : Nat) :
    receiveAccounts (countBoundary lock missed s) := by
  refine receiveAccounts_announceBoundary ?_ true
  exact receiveAccounts_congr rfl rfl rfl rfl h

theorem receiveAccounts_lockLoss {s : State} (h : receiveAccounts s) (cause : LossCause) {enter : State → State}
    (he : ∀ u, receiveAccounts u → receiveAccounts (enter u)) : receiveAccounts (lockLoss cause enter s) := by
  unfold lockLoss
  dsimp only
  have hentered := he _ (receiveAccounts_of_rx (t := reportLoss cause { s with
    link.permission := false
    link.decisionDue := false
    tx.cell := none
    counters.lockLosses := bump s.counters.lockLosses }) (by simp) h)
  split
  · exact receiveAccounts_completeDetach hentered
  · exact hentered

theorem receiveAccounts_takeReference {s : State} (h : receiveAccounts s) : receiveAccounts (takeReference s) :=
  receiveAccounts_congr rfl rfl rfl rfl h

theorem receiveAccounts_enterSearch {s : State} (h : receiveAccounts s) : receiveAccounts (enterSearch s) :=
  receiveAccounts_congr rfl rfl rfl rfl h

theorem receiveAccounts_observeMark {s : State} (h : receiveAccounts s) (count : Nat) : receiveAccounts (observeMark count s) := by
  have hpassed : receiveAccounts (passTime count s) := receiveAccounts_of_rx (by simp) h
  unfold observeMark
  dsimp only
  (repeat' split)
  · exact h
  · exact h
  · exact receiveAccounts_takeReference h
  · exact receiveAccounts_announceBoundary (receiveAccounts_congr (by simp [openFrame, beginCount]) (by simp [openFrame, beginCount])
      (by simp [openFrame, beginCount]) (by simp [openFrame, beginCount]) h) true
  · exact receiveAccounts_takeReference h
  · exact receiveAccounts_countBoundary hpassed _ _
  · exact receiveAccounts_lockLoss hpassed _ fun _ => receiveAccounts_takeReference
  · exact receiveAccounts_countBoundary hpassed _ _
  · exact receiveAccounts_lockLoss hpassed _ fun _ => receiveAccounts_takeReference

theorem receiveAccounts_missMark {s : State} (h : receiveAccounts s) : receiveAccounts (missMark s) := by
  have hpassed : receiveAccounts (passTime Config.periodsPerFrame s) := receiveAccounts_of_rx (by simp) h
  unfold missMark
  dsimp only
  (repeat' split)
  · exact h
  · exact h
  · exact h
  · exact receiveAccounts_enterSearch h
  · exact receiveAccounts_countBoundary hpassed _ _
  · exact receiveAccounts_countBoundary hpassed _ _
  · exact receiveAccounts_lockLoss hpassed _ fun _ => receiveAccounts_enterSearch

theorem receiveAccounts_loseClock {s : State} (h : receiveAccounts s) : receiveAccounts (loseClock s) := by
  unfold loseClock
  split
  · exact h
  · exact h
  · exact h
  · exact receiveAccounts_enterSearch h
  · exact receiveAccounts_lockLoss h _ fun _ => receiveAccounts_enterSearch
  · exact receiveAccounts_lockLoss h _ fun _ => receiveAccounts_enterSearch

theorem receiveAccounts_masterBoundary {s : State} (h : receiveAccounts s) : receiveAccounts (masterBoundary s) := by
  have hended : receiveAccounts (endCell s) := receiveAccounts_of_rx (by simp) h
  unfold masterBoundary
  dsimp only
  split
  · exact receiveAccounts_announceBoundary hended false
  · refine receiveAccounts_announceBoundary ?_ true
    exact receiveAccounts_congr rfl rfl rfl rfl hended

/-! ## Slots -/

/-- What is sent in a slot can take the head of the owed acknowledgements, and touches nothing else of the Receive Unit (R22). -/
theorem transmitInSlot_rx (slot : Slot) (s : State) :
    (transmitInSlot slot s).rx = { s.rx with owed := s.rx.owed.tail } := by
  have hfirst (r : Record) (u : State) : (startFirstPass slot r u).rx = { u.rx with owed := u.rx.owed.tail } := by
    unfold startFirstPass
    dsimp only
    split <;> rfl
  unfold transmitInSlot chooseCell chooseNew
  (repeat' split)
  · rfl
  · rfl
  · rfl
  · rfl
  · exact hfirst ..
  · exact hfirst ..
  · rfl
  · rfl

theorem receiveAccounts_startSlot {s : State} (h : receiveAccounts s) (slot : Slot) : receiveAccounts (startSlot slot s) := by
  have hopened : receiveAccounts (openSlot slot s) := by
    refine receiveAccounts_congr ?_ ?_ ?_ ?_ h <;> (unfold openSlot; dsimp only; (repeat' split) <;> simp)
  unfold startSlot
  dsimp only
  split
  · exact receiveAccounts_owed_sublist hopened (by rw [transmitInSlot_rx]) (by rw [transmitInSlot_rx])
      (by rw [transmitInSlot_rx]) (by rw [transmitInSlot_rx]; exact List.tail_sublist _)
  · exact receiveAccounts_congr rfl rfl rfl rfl hopened

/-! ## Requests -/

theorem receiveAccounts_fetchMessage {s : State} (h : receiveAccounts s) : receiveAccounts (requestFetchMessage s).2.2 := by
  obtain ⟨hplaces, hblocks, hall, howed⟩ := id h
  unfold requestFetchMessage
  split
  · exact h
  · next e rest hm =>
    have hcount : assemblingCount { s with rx.mailbox := rest, rx.freeBlocks := s.rx.freeBlocks + e.blocks } = assemblingCount s :=
      rfl
    simp only [inboundPlaces, inboundBlocks, hm, List.length_cons, List.map_cons, List.sum_cons] at hplaces hblocks
    exact ⟨by simp only [inboundPlaces, hcount]; omega, by simp only [inboundBlocks]; omega, hall, howed⟩

theorem receiveAccounts_performRequest {s : State} (h : receiveAccounts s) (kind : RequestKind) (params : List Byte) :
    receiveAccounts (performRequest kind params s).2.2 := by
  cases kind with
  | ident | status | mapRead | peerRead | reset => exact h
  | configure =>
    simp only [performRequest, requestConfigure, refuse]
    split
    · exact h
    · split
      · exact h
      · refine receiveAccounts_congr ?_ ?_ ?_ ?_ h <;>
          (simp only [applyConfig, forgetNumbers]; (repeat' split) <;> rfl)
  | attach =>
    simp only [performRequest, requestAttach]
    split
    · refine receiveAccounts_announceBoundary ?_ true
      exact receiveAccounts_congr rfl rfl rfl rfl h
    · exact receiveAccounts_congr rfl rfl rfl rfl h
  | detach =>
    simp only [performRequest, requestDetach]
    (repeat' split)
    · exact h
    · exact receiveAccounts_completeDetach h
    · exact receiveAccounts_of_rx rfl h
  | mapStage =>
    simp only [performRequest, requestMapStage, refuse]
    split <;> exact receiveAccounts_of_rx rfl h
  | mapCommit =>
    simp only [performRequest, requestMapCommit, commitAtOnce, commitPending, refuse]
    (repeat' split) <;> exact receiveAccounts_of_rx (by simp) h
  | mapWithdraw =>
    simp only [performRequest, requestMapWithdraw, refuse]
    (repeat' split) <;> exact receiveAccounts_of_rx (by simp) h
  | send =>
    simp only [performRequest, requestSend, acceptSend, refuse]
    (repeat' split) <;> exact receiveAccounts_of_rx rfl h
  | cancel =>
    simp only [performRequest, requestCancel, cancelRecord, refuse]
    (repeat' split) <;> exact receiveAccounts_of_rx rfl h
  | queryTicket =>
    simp only [performRequest, requestQuery, refuse]
    split <;> exact h
  | fetchMessage => exact receiveAccounts_fetchMessage h
  | fetchEvent =>
    simp only [performRequest, requestFetchEvent]
    (repeat' split) <;> exact receiveAccounts_of_rx rfl h
  | counters =>
    simp only [performRequest, requestCounters]
    split <;> exact receiveAccounts_of_rx rfl h

/-! ## Every command -/

theorem receiveAccounts_resetState (phase : Phase) (rate : BitVec 2) (s : State) : receiveAccounts (resetState phase rate s) := by
  refine receiveAccounts_of_rx (s := State.reset) rfl ?_
  decide

/-- Settles O57: each effect of a command keeps the accounts. -/
theorem inboundLawsAreKept : Obligations.InboundLawsAreKept := by
  intro c s t h e
  have hsettled := receiveAccounts_settle h
  cases effect_of_exec e with
  | line _ _ ht => subst ht; exact receiveAccounts_of_rx rfl h
  | executed hp he =>
    obtain ⟨kind, params, h₁, cs, h₂, cs', -, rfl⟩ := he
    refine receiveAccounts_of_rx rfl (receiveAccounts_performRequest (s := withHost h₁ cs s) ?_ kind params)
    exact receiveAccounts_of_rx rfl h
  | reset _ _ _ _ ht => subst ht; exact receiveAccounts_resetState ..
  | pinReset _ _ _ ht => subst ht; exact receiveAccounts_resetState ..
  | held ht => subst ht; exact receiveAccounts_congr rfl rfl rfl rfl h
  | started _ ht => subst ht; exact receiveAccounts_of_rx rfl h
  | work w hw ht =>
    subst ht
    refine receiveAccounts_takeWork w (beforeWork_keeps (fun v u n _ hu => ?_) w s h)
    exact receiveAccounts_takeWork v (receiveAccounts_of_rx (s := u) rfl hu)
  | settled ht => subst ht; exact hsettled
  | boundary _ ht => subst ht; exact receiveAccounts_masterBoundary hsettled
  | mark count ht => subst ht; exact receiveAccounts_observeMark hsettled _
  | missed ht => subst ht; exact receiveAccounts_missMark hsettled
  | clock ht => subst ht; exact receiveAccounts_loseClock hsettled
  | slot slot _ _ ht => subst ht; exact receiveAccounts_startSlot hsettled slot
  | passEnd cell _ position ht => subst ht; exact receiveAccounts_of_rx (by simp) hsettled
  | cell slot image _ ht => subst ht; exact receiveAccounts_finishSlot hsettled slot image

end Sys2Proof.Machine
end

section
/-! Station, link and map go together (R4, R8 to R19, R39, R53, R157 to R163), and every command keeps them so. -/
namespace Sys2Proof.Machine

open Sys2Proof.Claims Sys2Proof.Safety

/-! ## The relations while RSTN is high -/

/-- The relations of station, link and map while RSTN is high. -/
abbrev blocksSound (s : State) : Prop := stationSound s ∧ linkSound s ∧ mapSound s ∧ workSound s ∧ startupSound s

/-- The relations rest on these fields, and giving up a cell or a reception keeps them. -/
theorem blocksSound_congr {s t : State} (h : blocksSound s) (hphase : t.phase = s.phase) (hstation : t.station = s.station) (hlink : t.link = s.link)
    (hpending : t.map.pendingMap = s.map.pendingMap) (houtcome : t.map.outcome = s.map.outcome)
    (hcell : t.tx.cell = none ∨ t.tx.cell = s.tx.cell) (hreceiving : t.rx.receiving = none ∨ t.rx.receiving = s.rx.receiving)
    (hdue : t.due = s.due) (hbegun : t.schedulerBegun = s.schedulerBegun) : blocksSound t := by
  obtain ⟨hst, ⟨h1, h2, h3, h4, h5, h6⟩, hmap, hwork, hstart⟩ := h
  unfold blocksSound stationSound linkSound mapSound workSound switchSound startupSound
  rw [hphase, hstation, hlink, hpending, houtcome, hdue, hbegun]
  refine ⟨hst, ⟨h1, h2, h3, fun hr => ?_, fun hc => ?_, h6⟩, hmap, hwork, hstart⟩
  · rcases hreceiving with e | e
    · simp [e] at hr
    · exact h4 (e ▸ hr)
  · rcases hcell with e | e
    · simp [e] at hc
    · exact h5 (e ▸ hc)

/-- With nothing left to do the relations of the boundary work hold. -/
theorem workSound_of_due_nil {s : State} (hdue : s.due = []) (hbegun : s.schedulerBegun = false) : workSound s := by
  simp [workSound, switchSound, hdue, hbegun]

theorem schedulerBegun_of_due_nil {s : State} (hdue : s.due = []) (h : workSound s) : s.schedulerBegun = false := by
  obtain ⟨-, -, -, hbegun⟩ := h
  rw [hdue] at hbegun
  exact Bool.eq_false_iff.2 fun hb => by simpa using hbegun hb

/-- A member that changes its lock state within the states of a member, and leaves LOCKED and COAST only while not DETACHING. -/
theorem stationSound_member {s t : State} (h : stationSound s) (hstation : t.station = s.station) (hs : memberLock s.link.lock)
    (ht : memberLock t.link.lock) (hdet : s.station.state = .detaching → t.link.lock = .locked ∨ t.link.lock = .coast) :
    stationSound t := by
  obtain ⟨hoff, -, hmember, -, hnode⟩ := h
  have hson : s.link.lock ≠ .off := by rcases hs with e | e | e | e <;> rw [e] <;> decide
  have hton : t.link.lock ≠ .off := by rcases ht with e | e | e | e <;> rw [e] <;> decide
  have htd : t.link.lock ≠ .driving := by rcases ht with e | e | e | e <;> rw [e] <;> decide
  unfold stationSound
  rw [hstation]
  exact ⟨⟨fun e => absurd e hton, fun e => absurd (hoff.2 e) hson⟩, fun e => absurd e htd, fun _ => hmember hs,
    fun e => .inr (hdet e), hnode⟩

theorem stationSound_congr {s t : State} (h : stationSound s) (hstation : t.station = s.station)
    (hlock : t.link.lock = s.link.lock) : stationSound t := by
  unfold stationSound
  rw [hstation, hlock]
  exact h

theorem mapSound_congr {s t : State} (h : mapSound s) (hstation : t.station = s.station)
    (hpending : t.map.pendingMap = s.map.pendingMap) (houtcome : t.map.outcome = s.map.outcome) : mapSound t := by
  unfold mapSound
  rw [hstation, hpending, houtcome]
  exact h

theorem startupSound_congr {s t : State} (h : startupSound s) (hphase : t.phase = s.phase) (hstation : t.station = s.station) :
    startupSound t := by
  unfold startupSound
  rw [hphase, hstation]
  exact h

/-- A station whose link is not OFF is ATTACHED or DETACHING. -/
theorem onLink_of_lock {s : State} (h : stationSound s) (hlock : s.link.lock ≠ .off) :
    s.station.state = .attached ∨ s.station.state = .detaching := by
  obtain ⟨hoff, -⟩ := h
  have hnot := fun e => hlock (hoff.2 e)
  cases hst : s.station.state <;> simp_all

/-! ## Cells and the permission decision -/

@[simp] theorem endPass_cell (r : Record) (s : State) : (endPass r s).tx.cell = s.tx.cell := by
  rcases endPass_cases r s with ⟨-, e⟩ | ⟨-, -, e⟩ | ⟨-, -, -, e⟩ | ⟨-, -, -, e⟩ <;> rw [e] <;> rfl

@[simp] theorem endCell_cell (s : State) : (endCell s).tx.cell = none := by
  rcases endCell_cases s with ⟨hc, e⟩ | ⟨c, -, -, e⟩ | ⟨c, t, -, -, -, e⟩ | ⟨c, t, r, -, -, -, e⟩ <;> simp [*]

theorem blocksSound_endCell {s : State} (h : blocksSound s) : blocksSound (endCell s) :=
  blocksSound_congr h (by simp) (by simp) (by simp) (by simp) (by simp) (.inl (endCell_cell s)) (.inr (by simp)) (by simp) (by simp)

/-- Permission is granted in LOCKED alone (R17). -/
theorem lock_of_grantsPermission {s : State} (h : grantsPermission s = true) : s.link.lock = .locked := by
  simp only [grantsPermission, Bool.and_eq_true, beq_iff_eq] at h
  exact h.1.1

theorem decidePermission_link (s : State) :
    (decidePermission s).link = { s.link with
      permission := if s.link.decisionDue then grantsPermission s else s.link.permission, decisionDue := false } := by
  rcases decidePermission_cases s with ⟨hd, e⟩ | ⟨hd, e⟩ <;> rw [e] <;> simp [hd]
  cases hl : s.link
  simp_all

theorem blocksSound_decidePermission {s : State} (h : blocksSound s) : blocksSound (decidePermission s) := by
  obtain ⟨hst, ⟨h1, h2, h3, h4, h5, h6⟩, hmap, hwork, hstart⟩ := h
  have hlink := decidePermission_link s
  refine ⟨stationSound_congr hst (by simp) (by rw [hlink]), ⟨?_, fun hp => ?_, ?_, ?_, ?_, ?_⟩,
    mapSound_congr hmap (by simp) (by simp) (by simp), ?_, startupSound_congr hstart (by simp) (by simp)⟩
  · rw [hlink]
    exact h1
  · rw [hlink] at hp ⊢
    dsimp only at hp ⊢
    split at hp
    · exact .inr (lock_of_grantsPermission hp)
    · exact h2 hp
  · rw [hlink]
    exact h3
  · rw [hlink]
    simpa using h4
  · rw [hlink]
    simpa using h5
  · rw [hlink]
    exact nofun
  · unfold workSound switchSound
    rw [hlink]
    simpa [workSound, switchSound] using hwork

/-- What must have happened by a later time keeps the relations, and by the end of the frame no cell is driven (R3). -/
theorem blocksSound_passTime {s : State} (h : blocksSound s) (count : Nat) : blocksSound (passTime count s) := by
  unfold passTime
  dsimp only
  (repeat' split)
  · exact blocksSound_decidePermission (blocksSound_endCell h)
  · exact blocksSound_decidePermission h
  · exact blocksSound_endCell h
  · exact h

theorem passTime_cell (s : State) : (passTime 4096 s).tx.cell = none := by
  have hended : (if cellEndedBy 4096 s then endCell s else s).tx.cell = none := by
    split
    · exact endCell_cell s
    · next he =>
      rcases hc : s.tx.cell with _ | c
      · rfl
      · have := c.slot.isLt
        have hafter : ¬ 256 * c.slot.val + 240 ≤ 4096 := by
          simpa [cellEndedBy, hc, Config.periodsPerSlot, Config.cellBits] using he
        omega
  simpa [passTime, Config.periodsPerSlot] using hended

theorem passTime_lock (count : Nat) (s : State) :
    (passTime count s).link.lock = s.link.lock ∧ (passTime count s).link.missed = s.link.missed := by
  unfold passTime
  dsimp only
  (repeat' split) <;> simp [decidePermission_link]

/-! ## Boundaries -/

theorem announceBoundary_due_any (begins : Bool) (s : State) :
    (announceBoundary begins s).due
      = schedulerWork s ++ receiverWork s ++ (if begins && switchesNow s then [Work.mapSwitch] else [])
        ++ (if s.station.state = .detaching then [Work.completion] else []) := by
  unfold announceBoundary
  dsimp only
  split <;> simp

/-- A boundary touches neither the pending map, nor the outcome, nor the cell, nor the reception. -/
theorem announceBoundary_keeps (begins : Bool) (s : State) :
    (announceBoundary begins s).map.pendingMap = s.map.pendingMap ∧ (announceBoundary begins s).map.outcome = s.map.outcome
      ∧ (announceBoundary begins s).tx.cell = s.tx.cell ∧ (announceBoundary begins s).rx.receiving = s.rx.receiving
      ∧ (announceBoundary begins s).schedulerBegun = false := by
  unfold announceBoundary closeMapWork
  dsimp only
  (repeat' split) <;> simp [setFrameGeneration]

/-- The work that a boundary announces (R15, R41, R161). -/
theorem workSound_announceBoundary {s : State} (begins : Bool)
    (hon : s.station.state = .attached ∨ s.station.state = .detaching) : workSound (announceBoundary begins s) := by
  obtain ⟨hpending, -, -, -, hbegun⟩ := announceBoundary_keeps begins s
  have hsched : Work.mapSwitch ∉ schedulerWork s ∧ Work.completion ∉ schedulerWork s := by simp [schedulerWork]
  have hrecv : Work.mapSwitch ∉ receiverWork s ∧ Work.completion ∉ receiverWork s := by simp [receiverWork]
  have hcount : (announceBoundary begins s).due.count .mapSwitch = if begins && switchesNow s then 1 else 0 := by
    rw [announceBoundary_due_any, List.count_append, List.count_append, List.count_append,
      List.count_eq_zero_of_not_mem hsched.1, List.count_eq_zero_of_not_mem hrecv.1]
    split <;> split <;> simp
  refine ⟨fun hc => ?_, fun _ => by simpa using hon, ?_, by simp [hbegun]⟩
  · rw [announceBoundary_due_any] at hc
    by_contra hd
    have hd' : s.station.state ≠ .detaching := by simpa using hd
    simp only [hd', if_false, List.append_nil, List.mem_append, hsched.2, hrecv.2, false_or] at hc
    split at hc <;> simp at hc
  · unfold switchSound
    rw [Bool.or_eq_true]
    by_cases hm : Work.mapSwitch ∈ (announceBoundary begins s).due
    · have hpos := List.count_pos_iff.2 hm
      rw [hcount] at hpos
      have hsw : (begins && switchesNow s) = true := by
        by_contra hno
        simp [hno] at hpos
      obtain ⟨p, hp, he⟩ := (switchesNow_iff s).1 (Bool.and_eq_true_iff.1 hsw).2
      refine .inr ?_
      rw [hcount, hsw, hpending, hp]
      simp [he]
    · exact .inl (by simpa using hm)

theorem blocksSound_announceBoundary {s : State} (begins : Bool) (hst : stationSound s) (hlink : linkSound s) (hmap : mapSound s)
    (hstart : startupSound s) (hlock : s.link.lock ≠ .off) : blocksSound (announceBoundary begins s) := by
  obtain ⟨hpending, houtcome, hcell, hreceiving, -⟩ := announceBoundary_keeps begins s
  refine ⟨stationSound_congr hst (by simp) (by simp), ?_, mapSound_congr hmap (by simp) hpending houtcome,
    workSound_announceBoundary begins (onLink_of_lock hst hlock), startupSound_congr hstart (by simp) (by simp)⟩
  unfold linkSound
  rw [hcell, hreceiving, (announceBoundary_frame begins s).2.2.1]
  exact hlink

/-- The completion of a detach leaves the station off the link (R162). -/
theorem completeDetach_fields (s : State) :
    (completeDetach s).station = { s.station with state := .detached } ∧ (completeDetach s).link = linkOff s.link
      ∧ (completeDetach s).map = detachedMap s.station.config.role s.map ∧ (completeDetach s).tx.cell = none
      ∧ (completeDetach s).rx.receiving = none ∧ (completeDetach s).due = [] ∧ (completeDetach s).schedulerBegun = false := by
  simp [completeDetach, clearForDetach]

theorem detachedMap_fields (role : Role) (m : MapUnit) :
    (detachedMap role m).pendingMap = none
      ∧ (detachedMap role m).outcome = if m.pendingMap.isSome then .nothing else m.outcome := by
  unfold detachedMap
  rcases hp : m.pendingMap with _ | p <;> cases role <;> simp [hp]

theorem blocksSound_completeDetach {s : State} (hnode : s.station.config.node.isSome = true)
    (houtcome : s.station.config.role = .member → s.map.outcome = .nothing) (hphase : s.phase ≠ .startup) :
    blocksSound (completeDetach s) := by
  obtain ⟨hstation, hlink, hmap, hcell, hreceiving, hdue, hbegun⟩ := completeDetach_fields s
  obtain ⟨hpending, hout⟩ := detachedMap_fields s.station.config.role s.map
  refine ⟨?_, ?_, ?_, workSound_of_due_nil hdue hbegun, ?_⟩
  · unfold stationSound
    rw [hstation, hlink]
    simp [linkOff, LinkTiming.reset, hnode]
  · unfold linkSound
    rw [hlink, hcell, hreceiving]
    simp [linkOff, LinkTiming.reset]
  · unfold mapSound
    rw [hstation, hmap, hpending, hout]
    refine ⟨nofun, fun hr => ?_⟩
    split
    · rfl
    · exact houtcome hr
  · intro hp
    exact absurd ((completeDetach_frame s).1 ▸ hp) hphase

/-! ## Boundary work -/

theorem closeMapWork_keeps (s : State) :
    (closeMapWork s).map.pendingMap = s.map.pendingMap ∧ (closeMapWork s).map.outcome = s.map.outcome := by
  unfold closeMapWork
  dsimp only
  split <;> simp [setFrameGeneration]

theorem switchMap_keeps (s : State) :
    (switchMap s).map.pendingMap = none
      ∧ (s.station.config.role = .member → (switchMap s).map.outcome = s.map.outcome) := by
  unfold switchMap
  split
  · next hp =>
    obtain ⟨hpending, houtcome⟩ := closeMapWork_keeps s
    exact ⟨hpending.trans hp, fun _ => houtcome⟩
  · next p hp =>
    refine ⟨?_, fun hr => ?_⟩
    · rw [(closeMapWork_keeps _).1]
      simp only [offerEvent_frame]
      split <;> rfl
    · rw [(closeMapWork_keeps _).2]
      simp [hr]

/-- With an item other than the completion off the list, the relations of the boundary work hold, as long as the pending map stays
or there is no switch left for it. -/
theorem workSound_erase {s t : State} {w : Work} (h : workSound s) (hw : w ≠ .completion) (hdue : t.due = s.due.erase w)
    (hbegun : t.schedulerBegun = (s.schedulerBegun || beginsScheduler w s)) (hstation : t.station = s.station)
    (hlink : t.link = s.link) (hmap : w = .mapSwitch ∨ t.map.pendingMap = s.map.pendingMap) : workSound t := by
  obtain ⟨hcompletion, hon, hswitch, hbeg⟩ := h
  have hkeeps : Work.completion ∈ s.due → Work.completion ∈ t.due := fun hc => hdue ▸ (List.mem_erase_of_ne hw.symm).2 hc
  refine ⟨fun hc => ?_, fun hne => ?_, ?_, fun hb => ?_⟩
  · rw [hdue] at hc
    rw [hstation]
    exact hcompletion (List.mem_of_mem_erase hc)
  · rw [hstation]
    refine hon fun e => hne ?_
    rw [hdue, e]
    rfl
  · unfold switchSound at hswitch ⊢
    rcases hmap with rfl | hp
    · rw [hdue]
      by_cases hm : Work.mapSwitch ∈ s.due
      · have hcount : s.due.count .mapSwitch = 1 := by
          have hc : s.due.contains Work.mapSwitch = true := by simpa using hm
          rw [hc, Bool.not_true, Bool.false_or, Bool.and_eq_true, beq_iff_eq] at hswitch
          exact hswitch.1
        have hnot : Work.mapSwitch ∉ s.due.erase .mapSwitch := by
          rw [← List.count_eq_zero, List.count_erase_self, hcount]
        simp [hnot]
      · simp [List.erase_of_not_mem hm, hm]
    · rw [hp, hlink, hdue]
      by_cases hne : w = .mapSwitch
      · subst hne
        rw [Bool.or_eq_true] at hswitch ⊢
        rcases hswitch with hs | hs
        · refine .inl ?_
          have hs' : Work.mapSwitch ∉ s.due := by simpa using hs
          simpa [List.erase_of_not_mem hs'] using hs'
        · refine .inl ?_
          rw [Bool.and_eq_true, beq_iff_eq] at hs
          have hnot : Work.mapSwitch ∉ s.due.erase .mapSwitch := by
            rw [← List.count_eq_zero, List.count_erase_self, hs.1]
          simpa using hnot
      · have hc : (s.due.erase w).contains Work.mapSwitch = s.due.contains Work.mapSwitch := by
          rw [Bool.eq_iff_iff, List.contains_iff_mem, List.contains_iff_mem]
          exact List.mem_erase_of_ne (Ne.symm hne)
        rw [hc, List.count_erase_of_ne (Ne.symm hne)]
        exact hswitch
  · rw [hbegun, Bool.or_eq_true] at hb
    refine hkeeps (hb.elim hbeg fun hb => ?_)
    simp only [beginsScheduler, Bool.and_eq_true] at hb
    simpa using hb.2

theorem linkSound_congr {s t : State} (h : linkSound s) (hlink : t.link = s.link) (hcell : t.tx.cell = s.tx.cell)
    (hreceiving : t.rx.receiving = s.rx.receiving) : linkSound t := by
  unfold linkSound
  rw [hlink, hcell, hreceiving]
  exact h

/-- An item of the Transmit Scheduler or of the Receive Unit touches neither cell, reception, maps, station nor link. -/
theorem doWork_blocks_frame {w : Work} (h₁ : w ≠ .completion) (h₂ : w ≠ .mapSwitch) (s : State) :
    (doWork w s).phase = s.phase ∧ (doWork w s).station = s.station ∧ (doWork w s).link = s.link ∧ (doWork w s).map = s.map
      ∧ (doWork w s).tx.cell = s.tx.cell ∧ (doWork w s).rx.receiving = s.rx.receiving
      ∧ (doWork w s).schedulerBegun = s.schedulerBegun := by
  cases w with
  | lifetime t =>
    simp only [doWork]
    rcases expireRecord_cases t s with e | ⟨r, -, -, e⟩ <;> rw [e] <;> exact ⟨rfl, rfl, rfl, rfl, rfl, rfl, rfl⟩
  | ackTimer t =>
    simp only [doWork]
    rcases judgeTimer_cases t s with e | ⟨r, -, -, ⟨-, e⟩ | ⟨-, e⟩⟩ <;> rw [e] <;> exact ⟨rfl, rfl, rfl, rfl, rfl, rfl, rfl⟩
  | reassembly n =>
    simp only [doWork, timeOutContext]
    (repeat' split) <;> exact ⟨rfl, rfl, rfl, rfl, rfl, rfl, rfl⟩
  | mapSwitch => exact absurd rfl h₂
  | completion => exact absurd rfl h₁

theorem blocksSound_takeWork {s : State} {w : Work} (h : blocksSound s) (hw : w ∈ s.due) : blocksSound (takeWork w s) := by
  obtain ⟨hst, hlink, hmap, hwork, hstart⟩ := h
  obtain ⟨-, -, -, -, hnode⟩ := id hst
  obtain ⟨-, hon, -, -⟩ := id hwork
  have hon' := hon (List.ne_nil_of_mem hw)
  by_cases hc : w = .completion
  · subst hc
    refine blocksSound_completeDetach (hnode ?_) hmap.2 fun hp => ?_
    · rcases hon' with e | e <;> rw [e] <;> decide
    · have hu : s.station.state = .unconfigured := hstart hp
      rcases hon' with e | e <;> rw [e] at hu <;> cases hu
  · have hdue := takeWork_due hc s
    by_cases hm : w = .mapSwitch
    · subst hm
      obtain ⟨hpending, houtcome⟩ := switchMap_keeps { s with
        due := s.due.erase .mapSwitch, schedulerBegun := s.schedulerBegun || beginsScheduler .mapSwitch s }
      refine ⟨stationSound_congr hst (by simp [takeWork, doWork]) (by simp [takeWork, doWork]),
        linkSound_congr hlink (by simp [takeWork, doWork]) (by simp [takeWork, doWork]) (by simp [takeWork, doWork]), ⟨?_, ?_⟩,
        workSound_erase hwork hc hdue (by simp [takeWork, doWork]) (by simp [takeWork, doWork]) (by simp [takeWork, doWork]) (.inl rfl),
        startupSound_congr hstart (by simp) (by simp [takeWork, doWork])⟩
      · simp [takeWork, doWork, hpending]
      · intro hr
        have hr' : s.station.config.role = .member := by simpa [takeWork, doWork] using hr
        exact (houtcome hr').trans (hmap.2 hr')
    · obtain ⟨hphase, hs, hl, hmp, hcell, hreceiving, hbegun⟩ := doWork_blocks_frame hc hm
        { s with due := s.due.erase w, schedulerBegun := s.schedulerBegun || beginsScheduler w s }
      exact ⟨stationSound_congr hst hs (congrArg LinkTiming.lock hl), linkSound_congr hlink hl hcell hreceiving,
        mapSound_congr hmap hs (congrArg MapUnit.pendingMap hmp) (congrArg MapUnit.outcome hmp),
        workSound_erase hwork hc hdue hbegun hs hl (.inr (congrArg MapUnit.pendingMap hmp)),
        startupSound_congr hstart hphase hs⟩

theorem blocksSound_choices {s : State} (h : blocksSound s) (n : Nat) : blocksSound { s with choices := n } := h

theorem blocksSound_settle {s : State} (h : blocksSound s) : blocksSound (settle s) :=
  settle_keeps (fun _ _ n hw hu => blocksSound_takeWork (blocksSound_choices hu n) hw) s h

/-! ## Marks -/

/-- A member begins to count anew in a lock state of its own, with nothing received and no cell driven. -/
theorem blocksSound_reference {s : State} (h : blocksSound s) (hdue : s.due = []) (hlock : memberLock s.link.lock)
    (hdet : s.station.state ≠ .detaching) (hcell : s.tx.cell = none) :
    blocksSound (takeReference s) ∧ blocksSound (enterSearch s) := by
  obtain ⟨hst, -, hmap, hwork, hstart⟩ := h
  have hbegun := schedulerBegun_of_due_nil hdue hwork
  constructor
  · refine ⟨stationSound_member hst rfl hlock (.inr (.inl rfl)) fun e => absurd e hdet, ?_, hmap,
      workSound_of_due_nil hdue hbegun, hstart⟩
    unfold linkSound
    simp [takeReference, setFrameGeneration, beginCount, hcell]
  · refine ⟨stationSound_member hst rfl hlock (.inl rfl) fun e => absurd e hdet, ?_, hmap,
      workSound_of_due_nil hdue hbegun, hstart⟩
    unfold linkSound
    simp [enterSearch, hcell]

/-- A member counts a boundary into LOCKED or COAST. -/
theorem blocksSound_countBoundary {s : State} (h : blocksSound s) (hlock : memberLock s.link.lock) (hcell : s.tx.cell = none)
    {lock : LockState} {missed : Nat}
    (hinto : (lock = .locked ∧ missed = 0) ∨ (lock = .coast ∧ (missed = 1 ∨ missed = 2))) :
    blocksSound (countBoundary lock missed s) := by
  obtain ⟨hst, -, hmap, -, hstart⟩ := h
  have hmember : memberLock lock := by
    rcases hinto with ⟨e, -⟩ | ⟨e, -⟩
    · exact .inr (.inr (.inl e))
    · exact .inr (.inr (.inr e))
  refine blocksSound_announceBoundary true (stationSound_member hst rfl hlock hmember fun _ => ?_) ?_ hmap hstart ?_
  · rcases hinto with ⟨e, -⟩ | ⟨e, -⟩
    · exact .inl e
    · exact .inr e
  · rcases hinto with ⟨rfl, rfl⟩ | ⟨rfl, rfl | rfl⟩ <;> simp [linkSound, openFrame, beginCount, hcell]
  · rcases hinto with ⟨rfl, -⟩ | ⟨rfl, -⟩ <;> exact nofun

theorem blocksSound_enterLocked {s : State} (h : blocksSound s) (hlock : s.link.lock = .verify) (hcell : s.tx.cell = none) :
    blocksSound (enterLocked s) := by
  obtain ⟨hst, -, hmap, -, hstart⟩ := h
  refine blocksSound_announceBoundary true (stationSound_member hst (by simp) (.inr (.inl hlock)) ?_ fun _ => ?_) ?_
    (mapSound_congr hmap (by simp) (by simp) (by simp)) (startupSound_congr hstart (by simp) (by simp)) ?_
  · exact .inr (.inr (.inl (by simp)))
  · exact .inl (by simp)
  · simp [linkSound, openFrame, beginCount, hcell]
  · simp

/-- The cut of a pass leaves the cell alone. -/
@[simp] theorem cutPass_cell (s : State) : (cutPass s).tx.cell = s.tx.cell := by
  rcases cutPass_cases s with ⟨-, e⟩ | ⟨r, -, e⟩
  · rw [e]
  · rw [e]
    split
    · rcases cutRetransmission_cases r s with ⟨-, e⟩ | ⟨-, -, e⟩ | ⟨-, -, e⟩ <;> rw [e] <;> rfl
    · rcases cutFirstPass_cases r s with ⟨-, e⟩ | ⟨-, e⟩ <;> rw [e] <;> cases r.number <;> rfl

@[simp] theorem offered_tx (k : EventKind) (s : State) : (offered k s).tx = s.tx := by simp [← offerEvent_eq_offered]

@[simp] theorem reportLoss_cell (cause : LossCause) (s : State) : (reportLoss cause s).tx.cell = s.tx.cell := by
  obtain ⟨n, e | e⟩ := reportLoss_cases cause s <;> rw [e] <;> simp

/-- A lock loss leaves a member searching or in VERIFY, or completes its detach (R13). -/
theorem blocksSound_lockLoss {s : State} (h : blocksSound s) (hdue : s.due = []) (hlock : memberLock s.link.lock)
    (cause : LossCause) (enter : State → State) (he : enter = takeReference ∨ enter = enterSearch) :
    blocksSound (lockLoss cause enter s) := by
  obtain ⟨hst, hlink, hmap, hwork, hstart⟩ := id h
  generalize hu : reportLoss cause { s with
    link.permission := false
    link.decisionDue := false
    tx.cell := none
    counters.lockLosses := bump s.counters.lockLosses } = u
  have hlost : lockLoss cause enter s = if (enter u).station.state = .detaching then completeDetach (enter u) else enter u := by
    rw [← hu]
    rfl
  have hustation : u.station = s.station := by simp [← hu]
  have hphase : (enter u).phase = s.phase := by rcases he with rfl | rfl <;> simp [← hu]
  have hstation : (enter u).station = s.station := by rcases he with rfl | rfl <;> simp [← hu]
  have houtcome : (enter u).map.outcome = s.map.outcome := by
    rcases he with rfl | rfl <;> simp [← hu, takeReference, setFrameGeneration, beginCount]
  rw [hlost, hstation]
  split
  · next hd =>
    have hon : s.station.state ≠ .unconfigured := by rw [hd]; decide
    refine blocksSound_completeDetach ?_ ?_ fun hp => hon (hstart (hphase ▸ hp))
    · rw [hstation]
      exact hst.2.2.2.2 hon
    · rw [hstation, houtcome]
      exact hmap.2
  · next hd =>
    have hu' : blocksSound u := by
      obtain ⟨h1, h2, h3, h4, -, -⟩ := hlink
      refine ⟨stationSound_congr hst hustation (by simp [← hu]), ?_, mapSound_congr hmap hustation (by simp [← hu]) (by simp [← hu]),
        workSound_of_due_nil (by simpa [← hu] using hdue) (by simpa [← hu] using schedulerBegun_of_due_nil hdue hwork),
        startupSound_congr hstart (by simp [← hu]) hustation⟩
      unfold linkSound
      simp only [← hu, reportLoss_frame, reportLoss_cell]
      exact ⟨h1, nofun, h3, h4, nofun, nofun⟩
    obtain ⟨hreference, hsearch⟩ := blocksSound_reference hu' (by simpa [← hu] using hdue) (by simpa [← hu] using hlock)
      (by rwa [hustation]) (by simp [← hu])
    rcases he with rfl | rfl
    · exact hreference
    · exact hsearch

/-- In SEARCH and VERIFY nothing is driven and no detach is in progress (R17, R160). -/
theorem quiet_of_lock {s : State} (h : blocksSound s) (hlock : s.link.lock = .search ∨ s.link.lock = .verify) :
    s.tx.cell = none ∧ s.station.state ≠ .detaching := by
  obtain ⟨⟨-, -, -, hdet, -⟩, ⟨-, -, -, -, hcell, -⟩, -⟩ := h
  constructor
  · rcases hc : s.tx.cell with _ | c
    · rfl
    · have := hcell (by simp [hc])
      rcases hlock with e | e <;> rw [e] at this <;> simp at this
  · intro hd
    have := hdet hd
    rcases hlock with e | e <;> rw [e] at this <;> simp at this

theorem blocksSound_observeMark {s : State} (h : blocksSound s) (hdue : s.due = []) (count : Nat) :
    blocksSound (observeMark count s) := by
  have hpassed := blocksSound_passTime h count
  obtain ⟨hplock, hpmissed⟩ := passTime_lock count s
  have hpdue : (passTime count s).due = [] := by simpa using hdue
  unfold observeMark
  split
  · exact h
  · exact h
  · next hl =>
    obtain ⟨hcell, hdet⟩ := quiet_of_lock h (.inl hl)
    exact (blocksSound_reference h hdue (.inl hl) hdet hcell).1
  · next hl =>
    obtain ⟨hcell, hdet⟩ := quiet_of_lock h (.inr hl)
    split
    · exact blocksSound_enterLocked h hl hcell
    · exact (blocksSound_reference h hdue (.inr (.inl hl)) hdet hcell).1
  · next hl =>
    have hmember : memberLock (passTime count s).link.lock := .inr (.inr (.inl (hplock.trans hl)))
    dsimp only
    split
    · next hcount =>
      obtain ⟨-, ⟨hmissed, -⟩, -⟩ := h
      refine blocksSound_countBoundary hpassed hmember (hcount ▸ passTime_cell s) (.inl ⟨rfl, ?_⟩)
      rw [hpmissed]
      simpa [hl] using hmissed
    · exact blocksSound_lockLoss hpassed hpdue hmember _ _ (.inl rfl)
  · next hl =>
    have hmember : memberLock (passTime count s).link.lock := .inr (.inr (.inr (hplock.trans hl)))
    dsimp only
    split
    · next hcount => exact blocksSound_countBoundary hpassed hmember (hcount ▸ passTime_cell s) (.inl ⟨rfl, rfl⟩)
    · exact blocksSound_lockLoss hpassed hpdue hmember _ _ (.inl rfl)

theorem blocksSound_missMark {s : State} (h : blocksSound s) (hdue : s.due = []) : blocksSound (missMark s) := by
  have hpassed := blocksSound_passTime h Config.periodsPerFrame
  obtain ⟨hplock, -⟩ := passTime_lock Config.periodsPerFrame s
  have hpdue : (passTime Config.periodsPerFrame s).due = [] := by simpa using hdue
  unfold missMark
  split
  · exact h
  · exact h
  · exact h
  · next hl =>
    obtain ⟨hcell, hdet⟩ := quiet_of_lock h (.inr hl)
    exact (blocksSound_reference h hdue (.inr (.inl hl)) hdet hcell).2
  · next hl =>
    exact blocksSound_countBoundary hpassed (.inr (.inr (.inl (hplock.trans hl)))) (passTime_cell s) (.inr ⟨rfl, .inl rfl⟩)
  · next hl =>
    have hmember : memberLock (passTime Config.periodsPerFrame s).link.lock := .inr (.inr (.inr (hplock.trans hl)))
    dsimp only
    split
    · exact blocksSound_countBoundary hpassed hmember (passTime_cell s) (.inr ⟨rfl, .inr rfl⟩)
    · exact blocksSound_lockLoss hpassed hpdue hmember _ _ (.inr rfl)

theorem blocksSound_loseClock {s : State} (h : blocksSound s) (hdue : s.due = []) : blocksSound (loseClock s) := by
  unfold loseClock
  split
  · exact h
  · exact h
  · exact h
  · next hl =>
    obtain ⟨hcell, hdet⟩ := quiet_of_lock h (.inr hl)
    exact (blocksSound_reference h hdue (.inr (.inl hl)) hdet hcell).2
  · next hl => exact blocksSound_lockLoss h hdue (.inr (.inr (.inl hl))) _ _ (.inr rfl)
  · next hl => exact blocksSound_lockLoss h hdue (.inr (.inr (.inr hl))) _ _ (.inr rfl)

theorem blocksSound_masterBoundary {s : State} (h : blocksSound s) (hlock : s.link.lock = .driving) :
    blocksSound (masterBoundary s) := by
  obtain ⟨hst, hlink, hmap, -, hstart⟩ := blocksSound_endCell h
  have hl : (endCell s).link.lock = .driving := by simpa using hlock
  unfold masterBoundary
  dsimp only
  split
  · exact blocksSound_announceBoundary false hst hlink hmap hstart (by rw [hl]; decide)
  · obtain ⟨h1, h2, -, -, -, h6⟩ := hlink
    refine blocksSound_announceBoundary true hst ⟨h1, h2, ?_, nofun, ?_, h6⟩ hmap hstart ?_
    · simp [beginCount, hlock]
    · simp [beginCount]
    · simp [beginCount, hlock]

/-! ## Slots -/

theorem onLock_of_announcesSlots {l : LockState} (h : announcesSlots l = true) : l ≠ .off ∧ l ≠ .search := by
  revert h
  cases l <;> decide

/-- A count stands wherever the lock state has one (R2). -/
theorem blocksSound_position {s : State} (h : blocksSound s) (hlock : s.link.lock ≠ .off ∧ s.link.lock ≠ .search)
    (position nextSlot : Nat) : blocksSound { s with link.position := some position, link.nextSlot := nextSlot } := by
  obtain ⟨hst, ⟨h1, h2, -, h4, h5, h6⟩, hmap, hwork, hstart⟩ := h
  refine ⟨hst, ⟨h1, h2, ?_, h4, h5, h6⟩, hmap, hwork, hstart⟩
  simp [hlock.1, hlock.2]

theorem openSlot_lock (slot : Slot) (s : State) : (openSlot slot s).link.lock = s.link.lock := by
  unfold openSlot
  dsimp only
  (repeat' split) <;> simp [decidePermission_link]

theorem blocksSound_openSlot {s : State} (h : blocksSound s) (hslots : announcesSlots s.link.lock = true) (slot : Slot) :
    blocksSound (openSlot slot s) := by
  have hon := onLock_of_announcesSlots hslots
  have hended := blocksSound_endCell h
  have hlock : (endCell s).link.lock = s.link.lock := by simp
  unfold openSlot
  dsimp only
  split
  · exact blocksSound_congr
      (blocksSound_position hended (hlock ▸ hon) (Config.periodsPerSlot * slot.val) (slot.val + 1))
      rfl rfl rfl rfl rfl (.inr rfl) (.inl rfl) rfl rfl
  · have hdecided : (decidePermission (endCell s)).link.lock = s.link.lock := by simp [decidePermission_link]
    exact blocksSound_congr
      (blocksSound_position (blocksSound_decidePermission hended) (hdecided ▸ hon) (Config.periodsPerSlot * slot.val) (slot.val + 1))
      rfl rfl rfl rfl rfl (.inr rfl) (.inl rfl) rfl rfl

theorem transmitInSlot_receiving (slot : Slot) (s : State) : (transmitInSlot slot s).rx.receiving = s.rx.receiving := by
  rw [transmitInSlot_rx]

theorem blocksSound_startSlot {s : State} (h : blocksSound s) {slot : Slot} (hstart : canStart slot s = true) :
    blocksSound (startSlot slot s) := by
  have hslots : announcesSlots s.link.lock = true := (Bool.and_eq_true_iff.1 hstart).1
  obtain ⟨hst, ⟨h1, h2, h3, h4, h5, h6⟩, hmap, hwork, hup⟩ := blocksSound_openSlot h hslots slot
  unfold startSlot
  dsimp only
  split
  · next hdrives =>
    have hpermission : (openSlot slot s).link.permission = true := by
      simp only [drivesSlot, Bool.and_eq_true] at hdrives
      exact hdrives.1.1
    refine ⟨stationSound_congr hst (by simp) (by simp), ?_, mapSound_congr hmap (by simp) (by simp) (by simp), ?_,
      startupSound_congr hup (by simp) (by simp)⟩
    · unfold linkSound
      rw [transmitInSlot_receiving, (transmitInSlot_frame slot (openSlot slot s)).2.2.1]
      exact ⟨h1, h2, h3, h4, fun _ => h2 hpermission, h6⟩
    · unfold workSound switchSound
      simpa [workSound, switchSound] using hwork
  · exact ⟨hst, ⟨h1, h2, h3, fun _ => by rw [openSlot_lock]; exact hslots, h5, h6⟩, hmap, hwork, hup⟩

/-! ## Cells received -/

/-- The hand-off keeps the relations while no boundary work is left; a member's pending map comes and goes with the control cells
(R45, R47). -/
theorem blocksSound_contentStep {s : State} (h : blocksSound s) (hdue : s.due = [])
    (hon : s.station.state = .attached ∨ s.station.state = .detaching) (n : Node) (c : Cell) :
    blocksSound (contentStep n c s) := by
  unfold contentStep
  split
  · split
    · next hrole =>
      obtain ⟨hst, ⟨h1, h2, h3, h4, h5, h6⟩, ⟨-, houtcome⟩, hwork, hstart⟩ := h
      have hfollow : ∀ u : State, (followMap n (readContent c.payload) u).map.outcome = u.map.outcome := by
        intro u
        unfold followMap dropPending storePending adoptMap
        dsimp only
        (repeat' split) <;> simp
      refine ⟨stationSound_congr hst (by simp) (by simp [controlStep]), ?_, ⟨fun _ => by simpa using hon, fun hr => ?_⟩,
        workSound_of_due_nil (by simpa using hdue) (by simpa using schedulerBegun_of_due_nil hdue hwork),
        startupSound_congr hstart (by simp) (by simp)⟩
      · unfold linkSound controlStep
        simp only [followMap_frame]
        exact ⟨h1, h2, h3, h4, h5, h6⟩
      · rw [controlStep, hfollow]
        exact houtcome hrole
    · exact h
  · split
    · have hreceiving : (dataStep n c s).rx.receiving = s.rx.receiving := by
        unfold dataStep firstCell laterCell newMessage completeMessage discardContext
        dsimp only
        (repeat' split) <;> rfl
      exact blocksSound_congr h (by simp) (by simp) (by simp) (by simp) (by simp) (.inr (by simp)) (.inr hreceiving) (by simp) (by simp)
    · exact h

theorem applyNotice_cell (n : Node) (k : Nibble) (s : State) : (applyNotice n k s).tx.cell = s.tx.cell := by
  rcases applyNotice_cases n k s with ⟨-, e⟩ | ⟨r, -, ⟨-, -, e⟩ | ⟨-, e⟩⟩ <;> rw [e] <;> rfl

theorem blocksSound_noticeStep {s : State} (h : blocksSound s) (n : Node) (c : Cell) : blocksSound (noticeStep n c s) := by
  unfold noticeStep
  split
  · exact blocksSound_congr h (by simp) (by simp) (by simp) (by simp) (by simp) (.inr (applyNotice_cell ..)) (.inr (by simp)) (by simp)
      (by simp)
  · exact h

theorem epochStep_receiving (n : Node) (e : Byte) (s : State) : (epochStep n e s).rx.receiving = s.rx.receiving := by
  unfold epochStep
  dsimp only
  (repeat' split) <;> simp [abandonContext, setContext]

theorem blocksSound_epochStep {s : State} (h : blocksSound s) (n : Node) (e : Byte) : blocksSound (epochStep n e s) :=
  blocksSound_congr h (by simp) (by simp) (by simp) (by simp) (by simp) (.inr (by simp)) (.inr (epochStep_receiving ..)) (by simp)
    (by simp)

@[simp] theorem noticeStep_frame (n : Node) (c : Cell) (s : State) :
    (noticeStep n c s).station = s.station ∧ (noticeStep n c s).due = s.due := by
  unfold noticeStep
  split <;> simp

theorem blocksSound_judgeImage {s : State} (h : blocksSound s) (hdue : s.due = [])
    (hon : s.station.state = .attached ∨ s.station.state = .detaching) (slot : Slot) (image : List Byte) :
    blocksSound (judgeImage slot image s) := by
  have hcounted : ∀ cs, blocksSound { s with counters := cs } := fun _ => h
  unfold judgeImage
  dsimp only
  (repeat' split)
  · exact hcounted _
  · exact hcounted _
  · exact hcounted _
  · exact hcounted _
  · rw [handOff_eq]
    exact blocksSound_contentStep (blocksSound_noticeStep (blocksSound_epochStep (hcounted _) _ _) _ _) (by simpa using hdue)
      (by simpa using hon) _ _

theorem blocksSound_finishSlot {s : State} (h : blocksSound s) (hdue : s.due = []) {slot : Slot}
    (hreceiving : s.rx.receiving = some slot) (image : List Byte) : blocksSound (finishSlot slot image s) := by
  obtain ⟨hst, ⟨-, -, -, hslots, -, -⟩, -⟩ := id h
  have hlock := onLock_of_announcesSlots (hslots (by simp [hreceiving]))
  have hsampled : blocksSound (sampled slot s) :=
    blocksSound_congr (blocksSound_position h hlock (256 * slot.val + 240) s.link.nextSlot)
      rfl rfl rfl rfl rfl (.inr rfl) (.inl rfl) rfl rfl
  have hjudged := blocksSound_judgeImage hsampled hdue (onLink_of_lock hst hlock.1) slot image
  change blocksSound (if slot.val = 0 then decidePermission (judgeImage slot image (sampled slot s)) else
    judgeImage slot image (sampled slot s))
  split
  · exact blocksSound_decidePermission hjudged
  · exact hjudged

/-! ## Requests -/

/-- Off the link there is no boundary work and no pending map. -/
theorem offLink {s : State} (h : blocksSound s) (hst : s.station.state = .unconfigured ∨ s.station.state = .detached) :
    s.due = [] ∧ s.schedulerBegun = false ∧ s.map.pendingMap = none ∧ s.link.lock = .off := by
  obtain ⟨⟨hoff, -⟩, -, ⟨hpending, -⟩, hwork, -⟩ := h
  have hnot : ¬(s.station.state = .attached ∨ s.station.state = .detaching) := by
    rcases hst with e | e <;> rw [e] <;> decide
  have hdue : s.due = [] := by
    by_contra hne
    exact hnot (hwork.2.1 hne)
  refine ⟨hdue, schedulerBegun_of_due_nil hdue hwork, ?_, hoff.2 hst⟩
  rcases hp : s.map.pendingMap with _ | p
  · rfl
  · exact absurd (hpending (by simp [hp])) hnot

theorem blocksSound_configure {s : State} (h : blocksSound s) (hrunning : s.phase = .running)
    (hst : s.station.state = .unconfigured ∨ s.station.state = .detached) (params : List Byte) :
    blocksSound (requestConfigure params s).2.2 := by
  obtain ⟨hdue, hbegun, -, hlock⟩ := offLink h hst
  unfold requestConfigure
  split
  · exact h
  · next c hc =>
    split
    · exact h
    · obtain ⟨-, hlink, -, -, -⟩ := h
      have hcell : (applyConfig c s).tx.cell = s.tx.cell ∧ (applyConfig c s).rx.receiving = s.rx.receiving
          ∧ (applyConfig c s).station = ⟨.detached, c⟩ ∧ (applyConfig c s).map = configuredMap c := by
        unfold applyConfig forgetNumbers
        dsimp only
        (repeat' split) <;> exact ⟨rfl, rfl, rfl, rfl⟩
      obtain ⟨hcell, hreceiving, hstation, hmap⟩ := hcell
      have hnode : c.node.isSome = true := by
        unfold configOperand at hc
        dsimp only at hc
        split at hc
        · next hr =>
          cases hc
          exact nodeOf?_isSome.2 (by omega)
        · cases hc
      have hconfigured : (configuredMap c).pendingMap = none ∧ (configuredMap c).outcome = .nothing := by
        unfold configuredMap
        split <;> exact ⟨rfl, rfl⟩
      refine ⟨?_, linkSound_congr hlink (by simp) hcell hreceiving, ?_, workSound_of_due_nil (by simpa using hdue) (by simpa using hbegun),
        ?_⟩
      · unfold stationSound
        rw [hstation]
        simp [hlock, hnode]
      · unfold mapSound
        rw [hstation, hmap, hconfigured.1, hconfigured.2]
        exact ⟨nofun, fun _ => rfl⟩
      · intro hp
        simp [hrunning] at hp

theorem blocksSound_attach {s : State} (h : blocksSound s) (hrunning : s.phase = .running) (hst : s.station.state = .detached) :
    blocksSound (requestAttach s).2.2 := by
  obtain ⟨hdue, hbegun, hpending, hlock⟩ := offLink h (.inr hst)
  obtain ⟨⟨-, -, -, -, hnode⟩, ⟨-, -, -, -, hcell, -⟩, -, -, -⟩ := h
  have hnode' := hnode (by rw [hst]; decide)
  have hcell' : s.tx.cell = none := by
    rcases hc : s.tx.cell with _ | c
    · rfl
    · have := hcell (by simp [hc])
      simp [hlock] at this
  unfold requestAttach
  dsimp only
  split
  · next hrole =>
    refine blocksSound_announceBoundary true ?_ ?_ ?_ (fun hp => ?_) nofun
    · simp [stationSound, hrole, hnode']
    · simp [linkSound, beginCount, hcell']
    · simp [mapSound, hpending]
    · exact absurd (hrunning.symm.trans hp) (by decide)
  · next hrole =>
    refine ⟨?_, ?_, ?_, workSound_of_due_nil hdue hbegun, fun hp => ?_⟩
    · simp [stationSound, enterSearch, hrole, hnode']
    · simp [linkSound, enterSearch, hcell']
    · simp [mapSound, enterSearch, hpending]
    · exact absurd (hrunning.symm.trans hp) (by decide)

theorem blocksSound_detach {s : State} (h : blocksSound s) (hrunning : s.phase = .running)
    (hst : s.station.state = .attached ∨ s.station.state = .detaching) : blocksSound (requestDetach s).2.2 := by
  obtain ⟨⟨hoff, hdriving, hmember, hdetaching, hnode⟩, hlink, ⟨hpending, houtcome⟩, ⟨hcompletion, -, hswitch, hbegun⟩, -⟩ := id h
  have hon : s.station.state ≠ .unconfigured := by rcases hst with e | e <;> rw [e] <;> decide
  have hnot : ¬(s.station.state = .unconfigured ∨ s.station.state = .detached) := by rcases hst with e | e <;> rw [e] <;> decide
  have hlock : s.link.lock ≠ .off := fun e => hnot (hoff.1 e)
  unfold requestDetach
  split
  · exact h
  · split
    · exact blocksSound_completeDetach (hnode hon) houtcome (by rw [hrunning]; decide)
    · next hl =>
      refine ⟨⟨⟨fun e => absurd e hlock, ?_⟩, hdriving, hmember, fun _ => ?_, fun _ => hnode hon⟩, hlink,
        ⟨fun _ => .inr rfl, houtcome⟩, ⟨fun _ => rfl, fun _ => .inr rfl, hswitch, hbegun⟩, fun hp => ?_⟩
      · rintro (e | e) <;> cases e
      · cases e : s.link.lock <;> simp_all
      · exact absurd (hrunning.symm.trans hp) (by decide)

theorem blocksSound_mapCommit {s : State} (h : blocksSound s) (hst : s.station.state = .detached ∨ s.station.state = .attached)
    (hrole : s.station.config.role = .master) (params : List Byte) : blocksSound (requestMapCommit params s).2.2 := by
  obtain ⟨hstation, hlink, ⟨hpending, -⟩, hwork, hstart⟩ := id h
  have hmember : s.station.config.role ≠ .member := by rw [hrole]; decide
  unfold requestMapCommit
  dsimp only
  split
  · exact h
  · split
    · exact ⟨hstation, hlink, ⟨hpending, fun hr => absurd hr hmember⟩, hwork, hstart⟩
    · next hd =>
      have hatt := hst.resolve_left hd
      unfold commitPending
      split
      · exact h
      · next hnone =>
        refine ⟨hstation, hlink, ⟨fun _ => .inl hatt, fun hr => absurd hr hmember⟩, ?_, hstart⟩
        obtain ⟨hcompletion, hon, hswitch, hbegun⟩ := hwork
        refine ⟨hcompletion, hon, ?_, hbegun⟩
        have hnot : Work.mapSwitch ∉ s.due := by
          intro hm
          have hp : s.map.pendingMap = none := by simpa using hnone
          simp [switchSound, hp, hm] at hswitch
        simpa [switchSound] using Or.inl hnot

theorem blocksSound_mapWithdraw {s : State} (h : blocksSound s) (hrole : s.station.config.role = .master) :
    blocksSound (requestMapWithdraw s).2.2 := by
  obtain ⟨hst, hlink, -, hwork, hstart⟩ := id h
  have hmember : s.station.config.role ≠ .member := by rw [hrole]; decide
  have hdrop : ∀ u : State, (dropSwitch u).map.pendingMap = u.map.pendingMap := by
    intro u
    unfold dropSwitch
    split
    · exact (closeMapWork_keeps _).1
    · rfl
  unfold requestMapWithdraw
  split
  · refine ⟨stationSound_congr hst (by simp) (by simp), linkSound_congr hlink (by simp) (by simp) (by simp),
      ⟨?_, fun hr => absurd (by simpa using hr) hmember⟩,
      workSound_erase (w := .mapSwitch) hwork nofun (by simp) (by simp [beginsScheduler, Work.ofScheduler]) (by simp) (by simp) (.inl rfl),
      startupSound_congr hstart (by simp) (by simp)⟩
    simp [hdrop]
  · split <;> exact h

/-- What the state and role check lets through (R141). -/
theorem taken_iff {kind : RequestKind} {s : State} (h : stateCheck kind s = none) :
    (kind = .configure → s.station.state = .unconfigured ∨ s.station.state = .detached)
      ∧ (kind = .attach → s.station.state = .detached)
      ∧ (kind = .detach → s.station.state = .attached ∨ s.station.state = .detaching)
      ∧ (kind = .mapCommit → (s.station.state = .detached ∨ s.station.state = .attached) ∧ s.station.config.role = .master)
      ∧ (kind = .mapWithdraw → s.station.config.role = .master)
      ∧ (kind = .cancel → s.station.state ≠ .unconfigured)
      ∧ (kind = .send → s.station.state = .detached ∨ s.station.state = .attached) := by
  rw [stateCheck_eq_turnedAway] at h
  revert h kind
  generalize s.station.state = state
  generalize s.station.config.role = role
  intro kind
  cases kind <;> cases state <;> cases role <;> simp [turnedAway]

theorem blocksSound_performRequest {s : State} (h : blocksSound s) (hrunning : s.phase = .running) {kind : RequestKind}
    (htaken : stateCheck kind s = none) (params : List Byte) : blocksSound (performRequest kind params s).2.2 := by
  obtain ⟨hconfigure, hattach, hdetach, hcommit, hwithdraw, -, -⟩ := taken_iff htaken
  cases kind with
  | ident | status | mapRead | peerRead | reset => exact h
  | configure => exact blocksSound_configure h hrunning (hconfigure rfl) params
  | attach => exact blocksSound_attach h hrunning (hattach rfl)
  | detach => exact blocksSound_detach h hrunning (hdetach rfl)
  | mapStage =>
    simp only [performRequest, requestMapStage, refuse]
    split <;> exact h
  | mapCommit => exact blocksSound_mapCommit h (hcommit rfl).1 (hcommit rfl).2 params
  | mapWithdraw => exact blocksSound_mapWithdraw h (hwithdraw rfl)
  | send =>
    simp only [performRequest, requestSend, acceptSend, refuse]
    (repeat' split) <;> exact h
  | cancel =>
    simp only [performRequest, requestCancel, cancelRecord, refuse]
    (repeat' split) <;> exact h
  | queryTicket =>
    simp only [performRequest, requestQuery, refuse]
    split <;> exact h
  | fetchMessage =>
    simp only [performRequest, requestFetchMessage, refuse]
    split <;> exact h
  | fetchEvent =>
    simp only [performRequest, requestFetchEvent]
    (repeat' split) <;> exact h
  | counters =>
    simp only [performRequest, requestCounters]
    split <;> exact h

/-! ## Every command -/

theorem stationLinkSound_of_held {s : State} (hp : s.phase = .held) :
    stationLinkSound s ↔ s.link = LinkTiming.reset ∧ s.tx.cell = none ∧ s.rx.receiving = none ∧ s.due = [] := by
  rw [stationLinkSound, if_pos hp]

theorem stationLinkSound_of_not_held {s : State} (hp : s.phase ≠ .held) : stationLinkSound s ↔ blocksSound s := by
  rw [stationLinkSound, if_neg hp]

theorem blocksSound_resetState (phase : Phase) (rate : BitVec 2) (s : State) : blocksSound (resetState phase rate s) :=
  have hreset : stationSound State.reset ∧ linkSound State.reset ∧ mapSound State.reset ∧ workSound State.reset := by decide
  ⟨hreset.1, hreset.2.1, hreset.2.2.1, hreset.2.2.2, fun _ => rfl⟩

theorem stationLinkSound_resetState {phase : Phase} (hp : phase ≠ .held) (rate : BitVec 2) (s : State) :
    stationLinkSound (resetState phase rate s) :=
  (stationLinkSound_of_not_held (s := resetState phase rate s) hp).2 (blocksSound_resetState phase rate s)

theorem stationLinkSound_holdInReset (s : State) : stationLinkSound (holdInReset s) :=
  (stationLinkSound_of_held (s := holdInReset s) rfl).2 ⟨rfl, rfl, rfl, rfl⟩

/-- While RSTN is low only its release acts (R165). -/
theorem Effect.stationLinkSound_of_held {c : Instr} {s t : State} (e : Effect c s t) (hp : s.phase = .held)
    (h : stationLinkSound s) : stationLinkSound t := by
  obtain ⟨hlink, hcell, hreceiving, hdue⟩ := (Machine.stationLinkSound_of_held hp).1 h
  have hsettle := settle_of_due_nil hdue
  have hoff : s.link.lock = .off := by rw [hlink]; rfl
  cases e with
  | line _ _ ht => subst ht; exact h
  | executed hrunning _ => exact absurd (hp.symm.trans hrunning) (by decide)
  | reset _ _ _ _ ht => subst ht; exact stationLinkSound_resetState (by decide) _ _
  | pinReset _ _ _ ht => subst ht; exact stationLinkSound_resetState (by decide) _ _
  | held ht => subst ht; exact stationLinkSound_holdInReset s
  | started hstartup _ => exact absurd (hp.symm.trans hstartup) (by decide)
  | work w hw _ => simp [hdue] at hw
  | settled ht => rwa [ht, hsettle]
  | boundary hl _ => simp [hsettle, hoff] at hl
  | mark count ht => rwa [ht, hsettle, show observeMark count.val s = s by simp [observeMark, hoff]]
  | missed ht => rwa [ht, hsettle, show missMark s = s by simp [missMark, hoff]]
  | clock ht => rwa [ht, hsettle, show loseClock s = s by simp [loseClock, hoff]]
  | slot slot _ hstart _ => simp [hsettle, canStart, announcesSlots, hoff] at hstart
  | passEnd cell hc _ _ => simp [hsettle, hcell] at hc
  | cell slot _ hr _ => simp [hsettle, hreceiving] at hr

/-- Settles O58: while RSTN is low nothing but its release acts, and while it is high each effect keeps the relations. -/
theorem stationAndLinkAgree : Obligations.StationAndLinkAgree := by
  intro c s t h e
  have effect := effect_of_exec e
  by_cases hheld : s.phase = .held
  · exact effect.stationLinkSound_of_held hheld h
  have hs := (stationLinkSound_of_not_held hheld).1 h
  have hsettled := blocksSound_settle hs
  have hdue := settle_due s
  have up {u : State} (hp : u.phase = s.phase) (hu : blocksSound u) : stationLinkSound u :=
    (stationLinkSound_of_not_held (by rwa [hp])).2 hu
  cases effect with
  | line _ _ ht => subst ht; exact h
  | executed hrunning he =>
    obtain ⟨kind, params, h₁, cs, h₂, cs', htaken, rfl⟩ := he
    refine up (by simp [withHost]) ?_
    exact blocksSound_performRequest (s := withHost h₁ cs s) hs hrunning htaken params
  | reset _ _ _ _ ht => subst ht; exact stationLinkSound_resetState (by decide) _ _
  | pinReset _ _ hp _ => exact absurd hp hheld
  | held ht => subst ht; exact stationLinkSound_holdInReset s
  | started hp ht =>
    subst ht
    obtain ⟨hst, hlink, hmap, hwork, -⟩ := hs
    exact (stationLinkSound_of_not_held (by simp)).2 ⟨hst, hlink, hmap, hwork, nofun⟩
  | work w hw ht =>
    subst ht
    refine up (by simp) (blocksSound_takeWork (beforeWork_keeps (fun v u n hv hu => ?_) w s hs) (mem_beforeWork hw))
    exact blocksSound_takeWork (blocksSound_choices hu n) hv
  | settled ht => subst ht; exact up (by simp) hsettled
  | boundary hl ht => subst ht; exact up (by simp) (blocksSound_masterBoundary hsettled hl)
  | mark count ht => subst ht; exact up (by simp) (blocksSound_observeMark hsettled hdue _)
  | missed ht => subst ht; exact up (by simp) (blocksSound_missMark hsettled hdue)
  | clock ht => subst ht; exact up (by simp) (blocksSound_loseClock hsettled hdue)
  | slot slot _ hstart ht => subst ht; exact up (by simp) (blocksSound_startSlot hsettled hstart)
  | passEnd cell hcell position ht =>
    subst ht
    refine up (by simp) (blocksSound_endCell (blocksSound_position hsettled ?_ position (settle s).link.nextSlot))
    obtain ⟨-, ⟨-, -, -, -, hdrives, -⟩, -⟩ := hsettled
    rcases hdrives (by simp [hcell]) with hl | hl <;> rw [hl] <;> decide
  | cell slot image hreceiving ht => subst ht; exact up (by simp) (blocksSound_finishSlot hsettled hdue hreceiving image)

end Sys2Proof.Machine
end

section
/-! What happens to the records of the outbound queue, step by step: the moves of the queue and the events, and what every move
keeps. -/
namespace Sys2Proof.Machine

open Sys2Proof.Claims Sys2Proof.Safety

/-! ## One record among those with other tickets -/

/-- The tickets of a list of records. -/
abbrev ticketsOf (records : List Record) : List Ticket := records.map fun r => r.ticket

/-- With distinct tickets a record stands in one place (R55). -/
theorem split_at_record {records : List Record} {q : Record} (hnd : (ticketsOf records).Nodup) (hq : q ∈ records) :
    ∃ a b, records = a ++ q :: b ∧ ∀ o ∈ a ++ b, o.ticket ≠ q.ticket := by
  obtain ⟨a, b, rfl⟩ := List.append_of_mem hq
  refine ⟨a, b, rfl, fun o ho e => ?_⟩
  have hnot : q.ticket ∉ ticketsOf (a ++ b) := by
    have := (List.perm_middle.map fun r : Record => r.ticket).nodup_iff.1 hnd
    rw [List.map_cons, List.nodup_cons] at this
    exact this.1
  exact hnot (e ▸ List.mem_map_of_mem ho)

theorem filter_ticket_split {a b : List Record} {q : Record} {t : Ticket} (hne : ∀ o ∈ a ++ b, o.ticket ≠ q.ticket)
    (ht : t = q.ticket) : (a ++ q :: b).filter (fun o => o.ticket != t) = a ++ b := by
  subst ht
  have hkept : (a ++ b).filter (fun o => o.ticket != q.ticket) = a ++ b := List.filter_eq_self.2 (by simpa using hne)
  rw [← hkept]
  simp

theorem replace_ticket_split {a b : List Record} {q r : Record} {t : Ticket} (hne : ∀ o ∈ a ++ b, o.ticket ≠ q.ticket)
    (ht : t = q.ticket) : (a ++ q :: b).map (fun o => if o.ticket = t then r else o) = a ++ r :: b := by
  subst ht
  have hkept (l : List Record) (hl : ∀ o ∈ l, o.ticket ≠ q.ticket) :
      l.map (fun o => if o.ticket = q.ticket then r else o) = l := by
    conv_rhs => rw [← List.map_id l]
    exact List.map_congr_left fun o ho => if_neg (hl o ho)
  rw [List.map_append, List.map_cons, if_pos rfl, hkept a fun o ho => hne o (List.mem_append_left b ho),
    hkept b fun o ho => hne o (List.mem_append_right a ho)]

theorem findRecord_mem {t : Ticket} {s : State} {r : Record} (h : findRecord t s = some r) :
    r ∈ s.tx.records ∧ r.ticket = t := by
  unfold findRecord at h
  exact ⟨List.mem_of_find?_eq_some h, by simpa using List.find?_some h⟩

theorem sendingRecord_mem {s : State} {r : Record} (h : sendingRecord s = some r) :
    r ∈ s.tx.records ∧ r.state = .sending := by
  unfold sendingRecord at h
  exact ⟨List.mem_of_find?_eq_some h, by simpa using List.find?_some h⟩

theorem sendingRecord_eq_none {s : State} (h : sendingRecord s = none) : ∀ o ∈ s.tx.records, o.state ≠ .sending := by
  unfold sendingRecord at h
  simpa using h

/-! ## The queue that a state holds -/

/-- `t` has the records, the RETRY order, the pool, the next ticket, the cell and the events of `s`. -/
def sameQueue (s t : State) : Prop :=
  t.tx.records = s.tx.records ∧ t.tx.retryOrder = s.tx.retryOrder ∧ t.tx.freeBlocks = s.tx.freeBlocks
    ∧ t.tx.nextTicket = s.tx.nextTicket ∧ t.tx.cell = s.tx.cell ∧ t.events = s.events

theorem sameQueue_of_eq {s t : State} (htx : t.tx = s.tx) (hevents : t.events = s.events) : sameQueue s t := by
  unfold sameQueue
  rw [htx, hevents]
  exact ⟨rfl, rfl, rfl, rfl, rfl, rfl⟩

/-- The accounts are of the records, the pool, the next ticket and the events alone. -/
theorem queueAccounts_congr {s t : State} (h : queueAccounts s) (hrecords : t.tx.records = s.tx.records)
    (hfree : t.tx.freeBlocks = s.tx.freeBlocks) (hnext : t.tx.nextTicket = s.tx.nextTicket) (hevents : t.events = s.events) :
    queueAccounts t := by
  unfold queueAccounts resultPlaces nonResultPlaces ticketsDistinct outboundBlocks resultCount nonResultEvents
  rw [hrecords, hfree, hnext, hevents]
  exact h

/-- What is sound of the passes is so of the records, the RETRY order and the cell alone. -/
theorem passesSound_congr {s t : State} (h : passesSound s) (hrecords : t.tx.records = s.tx.records)
    (horder : t.tx.retryOrder = s.tx.retryOrder) (hcell : t.tx.cell = none ∨ t.tx.cell = s.tx.cell) : passesSound t := by
  obtain ⟨h1, h2, h3, h4, h5, h6⟩ := h
  unfold passesSound onePass retryListed lastCellSending passEnding
  rw [hrecords, horder]
  refine ⟨h1, h2, h3, h4, h5, ?_⟩
  rcases hcell with e | e
  · rw [e]
    rfl
  · rw [e]
    exact h6

/-! ## Results and other events -/

theorem resultTickets_append (xs ys : List EventRecord) : resultTickets (xs ++ ys) = resultTickets xs ++ resultTickets ys :=
  List.filterMap_append

theorem resultTickets_of_other {e : EventRecord} (h : e.kind.isResult = false) : resultTickets [e] = [] := by
  rcases e with ⟨kind, lost, frame⟩
  cases kind <;> simp_all [resultTickets, EventKind.isResult]

/-- The events hold what they held and `new` behind it, with every other count as it was. -/
def eventsGrow (new : List EventRecord) (s t : State) : Prop :=
  t.events.records = s.events.records ++ new ∧ t.events.heldCount = s.events.heldCount
    ∧ t.events.nonResultCount = s.events.nonResultCount

/-- Every record's result, in the order of the queue (R75). -/
theorem flushed_events (records : List Record) (s : State) :
    ∃ new, eventsGrow new s (records.foldl (fun u r => pushEvent (r.result .flushed) u) s)
      ∧ resultTickets new = ticketsOf records ∧ new.countP (fun e => e.kind.isResult) = new.length := by
  induction records generalizing s with
  | nil => exact ⟨[], ⟨by simp, rfl, rfl⟩, rfl, rfl⟩
  | cons r records ih =>
    obtain ⟨new, ⟨hrecords, hheld, hother⟩, htickets, hcount⟩ := ih (pushEvent (r.result .flushed) s)
    refine ⟨{ kind := r.result .flushed, lostBefore := s.events.pendingLost, frame := s.link.frame } :: new,
      ⟨?_, hheld, hother⟩, ?_, ?_⟩
    · rw [List.foldl_cons, hrecords]
      simp [pushEvent]
    · have : ∀ e : EventRecord, resultTickets (e :: new) = resultTickets [e] ++ resultTickets new :=
        fun e => resultTickets_append [e] new
      rw [this, htickets]
      rfl
    · rw [List.countP_cons_of_pos rfl, hcount, List.length_cons]

/-! ## Moves -/

/-- The tickets of the RETRY records, in order of acceptance. -/
abbrev retryTickets (records : List Record) : List Ticket := ticketsOf (records.filter fun r => r.state == .retry)

/-- How the RETRY order follows where `q` gives its place to `r` from `s` to `t`: it stays; or the record enters RETRY and its ticket
joins the order; or the record leaves RETRY and its ticket leaves the order. -/
abbrev orderFollows (q r : Record) (s t : State) : Prop :=
  ((r.state = .retry ↔ q.state = .retry) ∧ t.tx.retryOrder = s.tx.retryOrder)
    ∨ (q.state ≠ .retry ∧ r.state = .retry ∧ t.tx.retryOrder.Perm (r.ticket :: s.tx.retryOrder))
    ∨ (r.state ≠ .retry ∧ t.tx.retryOrder = s.tx.retryOrder.filter fun x => x != r.ticket)

/-- What keeps the passes sound where `q` gives its place to `r` from `s` to `t`: `r` is sound and apart from the other records, it
is SENDING only where no other record is, the RETRY order follows, and a cell that ends its pass finds it
SENDING. -/
structure PutSound (q r : Record) (s t : State) : Prop where
  sound : recordSound r
  away : ∀ o ∈ s.tx.records, o.ticket ≠ q.ticket → apart r o
  only : r.state = .sending → q.state = .sending ∨ ∀ o ∈ s.tx.records, o.state ≠ .sending
  order : orderFollows q r s t
  ends : ∀ x, passEnding t = some x → (x = q.ticket ∧ r.state = .sending) ∨ (x ≠ q.ticket ∧ passEnding s = some x)

/-- What happens to the queue and the events in one move: nothing; the line is released; an event that is no result is offered; a
record ends in its result; a record is changed in its place; a boundary is counted; all records are flushed.  What a move asks of
the passes it is told by the hypothesis that they are sound. -/
inductive Move : State → State → Prop
  | other {s t : State} (h : sameQueue s t) : Move s t
  | released {s t : State} (h : sameQueue { s with tx.cell := none } t) : Move s t
  | offered {s t : State} (kind : EventKind) (hkind : kind.isResult = false) (h : sameQueue (offered kind s) t) : Move s t
  | ended {s : State} {q r : Record} (outcome : ResultOutcome) (hq : q ∈ s.tx.records) (hticket : r.ticket = q.ticket)
      (hpayload : r.payload = q.payload) (hends : passesSound s → passEnding s ≠ some q.ticket) :
      Move s (ended r outcome s)
  | replaced {s t : State} {q r : Record} (hq : q ∈ s.tx.records) (hticket : r.ticket = q.ticket)
      (hpayload : r.payload = q.payload) (hnumber : r.number = none ∨ r.number = q.number)
      (hrecords : t.tx.records = (replaced r s).tx.records) (hfree : t.tx.freeBlocks = s.tx.freeBlocks)
      (hnext : t.tx.nextTicket = s.tx.nextTicket) (hcell : t.tx.cell = none ∨ t.tx.cell = s.tx.cell) (hevents : t.events = s.events)
      (hput : passesSound s → PutSound q r s t) : Move s t
  | ticked {s t : State} (h : sameQueue { s with tx.records := s.tx.records.map ticked } t) : Move s t
  | flushed {s t : State} (new : List EventRecord) (hevents : eventsGrow new s t) (htickets : resultTickets new = ticketsOf s.tx.records)
      (hcount : new.countP (fun e => e.kind.isResult) = new.length) (hrecords : t.tx.records = []) (horder : t.tx.retryOrder = [])
      (hfree : t.tx.freeBlocks = s.tx.freeBlocks + (s.tx.records.map Record.blocks).sum)
      (hnext : t.tx.nextTicket = s.tx.nextTicket) (hcell : t.tx.cell = none) : Move s t

/-- Any number of moves. -/
abbrev Moves : State → State → Prop := Relation.ReflTransGen Move

/-! ## What a move does to the cell and the numbers -/

theorem offered_cell (kind : EventKind) (s : State) : (Claims.offered kind s).tx = s.tx := by
  unfold Claims.offered
  split <;> rfl

/-- No move begins to drive a cell. -/
theorem Move.cell {s t : State} (m : Move s t) : t.tx.cell = none ∨ t.tx.cell = s.tx.cell := by
  cases m with
  | other h => exact .inr h.2.2.2.2.1
  | released h => exact .inl h.2.2.2.2.1
  | offered kind hkind h => exact .inr (by rw [h.2.2.2.2.1, offered_cell])
  | ended outcome hq hticket hpayload hends => exact .inr rfl
  | replaced hq hticket hpayload hnumber hrecords hfree hnext hcell hevents hput => exact hcell
  | ticked h => exact .inr h.2.2.2.2.1
  | flushed new hevents htickets hcount hrecords horder hfree hnext hcell => exact .inl hcell

theorem Moves.cell {s t : State} (m : Moves s t) : t.tx.cell = none ∨ t.tx.cell = s.tx.cell := by
  induction m with
  | refl => exact .inr rfl
  | tail _ m ih =>
    rcases m.cell with e | e
    · exact .inl e
    · rw [e]
      exact ih

/-- Every number that a record of `t` bears it bore in `s`. -/
def numbersFrom (s t : State) : Prop :=
  ∀ r' ∈ t.tx.records, r'.number ≠ none → ∃ r ∈ s.tx.records, r.ticket = r'.ticket ∧ r.number = r'.number

theorem numbersFrom_of_records {s t : State} (h : t.tx.records = s.tx.records) : numbersFrom s t :=
  fun r' hr' _ => ⟨r', h ▸ hr', rfl, rfl⟩

/-- No move gives a number to a record (R65). -/
theorem Move.numbers {s t : State} (m : Move s t) : numbersFrom s t := by
  cases m with
  | other h => exact numbersFrom_of_records h.1
  | released h => exact numbersFrom_of_records h.1
  | offered kind hkind h => exact numbersFrom_of_records (by rw [h.1, offered_cell])
  | ended outcome hq hticket hpayload hends =>
    exact fun r' hr' _ => ⟨r', (List.mem_filter.1 hr').1, rfl, rfl⟩
  | @replaced _ q r hq hticket hpayload hnumber hrecords hfree hnext hcell hevents hput =>
    intro r' hr' hsome
    rw [hrecords] at hr'
    obtain ⟨o, ho, rfl⟩ := List.mem_map.1 hr'
    by_cases ht : o.ticket = r.ticket
    · rw [if_pos ht] at hsome ⊢
      exact ⟨q, hq, hticket.symm, (hnumber.resolve_left hsome).symm⟩
    · rw [if_neg ht]
      exact ⟨o, ho, rfl, rfl⟩
  | ticked h =>
    intro r' hr' _
    rw [h.1] at hr'
    obtain ⟨o, ho, rfl⟩ := List.mem_map.1 hr'
    exact ⟨o, ho, rfl, rfl⟩
  | flushed new hevents htickets hcount hrecords horder hfree hnext hcell =>
    intro r' hr'
    rw [hrecords] at hr'
    exact absurd hr' (List.not_mem_nil)

theorem numbersFrom.trans {s t u : State} (h : numbersFrom s t) (h' : numbersFrom t u) : numbersFrom s u := by
  intro r'' hr'' hsome
  obtain ⟨r', hr', ht', hn'⟩ := h' r'' hr'' hsome
  obtain ⟨r, hr, ht, hn⟩ := h r' hr' (hn' ▸ hsome)
  exact ⟨r, hr, ht.trans ht', hn.trans hn'⟩

theorem Moves.numbers {s t : State} (m : Moves s t) : numbersFrom s t := by
  induction m with
  | refl => exact numbersFrom_of_records rfl
  | tail _ m ih => exact ih.trans m.numbers

/-! ## What a move keeps of the accounts -/

/-- The accounts of records that stand around one of them. -/
theorem queueAccounts_ended {s : State} (h : queueAccounts s) {q r : Record} (hq : q ∈ s.tx.records) (hticket : r.ticket = q.ticket)
    (hpayload : r.payload = q.payload) (outcome : ResultOutcome) : queueAccounts (ended r outcome s) := by
  obtain ⟨⟨hheld, hmax⟩, hother, ⟨hnd, hzero, hnext⟩, hblocks⟩ := h
  obtain ⟨a, b, hab, hne⟩ := split_at_record hnd hq
  have hrecords : (ended r outcome s).tx.records = a ++ b := by
    unfold ended
    rw [hab]
    exact filter_ticket_split hne hticket
  have hsub : (a ++ b).Sublist s.tx.records := by
    rw [hab]
    exact (List.sublist_cons_self q b).append_left a
  have hresults : resultCount (ended r outcome s) = resultCount s + 1 := by
    simp [resultCount, ended, placed, resultOf, EventKind.isResult]
  have hothers : nonResultEvents (ended r outcome s) = nonResultEvents s := by
    simp [nonResultEvents, ended, placed, resultOf, EventKind.isResult]
  unfold queueAccounts resultPlaces nonResultPlaces ticketsDistinct outboundBlocks
  rw [hrecords, hresults, hothers]
  refine ⟨⟨?_, hmax⟩, hother, ⟨(hsub.map _).nodup hnd, fun o ho => hzero o (hsub.subset ho), hnext⟩, ?_⟩
  · change s.events.heldCount = _
    rw [hheld, hab]
    simp only [List.length_append, List.length_cons]
    omega
  · change s.tx.freeBlocks + blocks r.payload.length + _ = 64
    rw [hpayload, ← blocksFor_eq_blocks]
    unfold outboundBlocks at hblocks
    rw [hab] at hblocks
    simp only [List.map_append, List.map_cons, List.sum_append, List.sum_cons, Record.blocks] at hblocks ⊢
    omega

/-- The records of the same tickets and blocks, in the same order, have the same accounts. -/
theorem queueAccounts_map {s t : State} (h : queueAccounts s) {f : Record → Record} (hrecords : t.tx.records = s.tx.records.map f)
    (hf : ∀ r ∈ s.tx.records, (f r).ticket = r.ticket ∧ (f r).payload = r.payload) (hfree : t.tx.freeBlocks = s.tx.freeBlocks)
    (hnext : t.tx.nextTicket = s.tx.nextTicket) (hevents : t.events = s.events) : queueAccounts t := by
  have htickets : t.tx.records.map (fun r => r.ticket) = s.tx.records.map fun r => r.ticket := by
    rw [hrecords, List.map_map]
    exact List.map_congr_left fun r hr => (hf r hr).1
  have hblocks : t.tx.records.map Record.blocks = s.tx.records.map Record.blocks := by
    rw [hrecords, List.map_map]
    exact List.map_congr_left fun r hr => by simp only [Function.comp, Record.blocks, (hf r hr).2]
  have hlength : t.tx.records.length = s.tx.records.length := by rw [hrecords, List.length_map]
  obtain ⟨hplaces, hothers, ⟨hnd, hzero, hnz⟩, hpool⟩ := h
  have hzero' : ∀ r ∈ t.tx.records, r.ticket ≠ 0 := by
    rw [hrecords]
    intro r' hr'
    obtain ⟨r, hr, rfl⟩ := List.mem_map.1 hr'
    rw [(hf r hr).1]
    exact hzero r hr
  unfold queueAccounts resultPlaces nonResultPlaces ticketsDistinct outboundBlocks resultCount nonResultEvents
  rw [htickets, hblocks, hlength, hfree, hnext, hevents]
  exact ⟨hplaces, hothers, ⟨hnd, hzero', hnz⟩, hpool⟩

theorem replaced_records_map {s : State} {r : Record} (hr : ∀ q ∈ s.tx.records, q.ticket = r.ticket → r.payload = q.payload) :
    ∀ o ∈ s.tx.records, (if o.ticket = r.ticket then r else o).ticket = o.ticket
      ∧ (if o.ticket = r.ticket then r else o).payload = o.payload := by
  intro o ho
  split
  · next e => exact ⟨e.symm, hr o ho e⟩
  · exact ⟨rfl, rfl⟩

theorem eq_of_ticket {s : State} (hnd : (ticketsOf s.tx.records).Nodup) {o q : Record} (ho : o ∈ s.tx.records)
    (hq : q ∈ s.tx.records) (h : o.ticket = q.ticket) : o = q :=
  List.inj_on_of_nodup_map hnd ho hq h

theorem queueAccounts_offered {s : State} (h : queueAccounts s) {kind : EventKind} (hkind : kind.isResult = false) :
    queueAccounts (offered kind s) := by
  obtain ⟨⟨hheld, hmax⟩, ⟨hother, hother16⟩, htickets, hpool⟩ := h
  unfold offered
  split
  · next hroom =>
    refine ⟨⟨?_, hmax⟩, ⟨?_, ?_⟩, htickets, hpool⟩
    · simpa [resultCount, placed, hkind] using hheld
    · simpa [nonResultEvents, placed, hkind] using hother
    · change s.events.nonResultCount + 1 ≤ 16
      omega
  · exact ⟨⟨hheld, hmax⟩, ⟨hother, hother16⟩, htickets, hpool⟩

theorem queueAccounts_flushed {s t : State} (h : queueAccounts s) {new : List EventRecord} (hevents : eventsGrow new s t)
    (htickets : resultTickets new = ticketsOf s.tx.records) (hcount : new.countP (fun e => e.kind.isResult) = new.length)
    (hrecords : t.tx.records = []) (hfree : t.tx.freeBlocks = s.tx.freeBlocks + (s.tx.records.map Record.blocks).sum)
    (hnext : t.tx.nextTicket = s.tx.nextTicket) : queueAccounts t := by
  obtain ⟨⟨hheld, hmax⟩, ⟨hother, hother16⟩, ⟨-, -, hnz⟩, hpool⟩ := h
  obtain ⟨hgrown, hheld', hother'⟩ := hevents
  have hall : ∀ e ∈ new, e.kind.isResult = true := by simpa using List.countP_eq_length.1 hcount
  have hlen : new.length = s.tx.records.length := by
    have hmap : (resultTickets new).length = new.length := by
      rw [resultTickets, List.length_filterMap_eq_countP, List.countP_eq_length.2]
      intro e he
      have := hall e he
      rcases e with ⟨kind, lost, frame⟩
      cases kind <;> simp_all [EventKind.isResult]
    rw [← hmap, htickets, List.length_map]
  have hnone : new.countP (fun e => !e.kind.isResult) = 0 := List.countP_eq_zero.2 fun e he => by simp [hall e he]
  unfold queueAccounts resultPlaces nonResultPlaces ticketsDistinct outboundBlocks resultCount nonResultEvents
  rw [hgrown, hheld', hother', hrecords, hfree, hnext, List.countP_append, List.countP_append, hcount, hnone, hlen]
  refine ⟨⟨?_, hmax⟩, ⟨hother, hother16⟩, ⟨List.nodup_nil, fun _ hr => absurd hr List.not_mem_nil, hnz⟩, by simpa using hpool⟩
  rw [hheld]
  simp only [List.length_nil, resultCount]
  omega

/-- Every move keeps the accounts of the queue (laws 1, 2 and 4). -/
theorem Move.queueAccounts {s t : State} (m : Move s t) (h : queueAccounts s) : queueAccounts t := by
  cases m with
  | other hs => exact queueAccounts_congr h hs.1 hs.2.2.1 hs.2.2.2.1 hs.2.2.2.2.2
  | released hs => exact queueAccounts_congr (s := s) h hs.1 hs.2.2.1 hs.2.2.2.1 hs.2.2.2.2.2
  | offered kind hkind hs => exact queueAccounts_congr (queueAccounts_offered h hkind) hs.1 hs.2.2.1 hs.2.2.2.1 hs.2.2.2.2.2
  | ended outcome hq hticket hpayload hends => exact queueAccounts_ended h hq hticket hpayload outcome
  | replaced hq hticket hpayload hnumber hrecords hfree hnext hcell hevents hput =>
    refine queueAccounts_map h hrecords (replaced_records_map fun o ho e => ?_) hfree hnext hevents
    rw [eq_of_ticket h.2.2.1.1 ho hq (e.trans hticket)]
    exact hpayload
  | ticked hs => exact queueAccounts_map h hs.1 (fun r _ => ⟨rfl, rfl⟩) hs.2.2.1 hs.2.2.2.1 hs.2.2.2.2.2
  | flushed new hevents htickets hcount hrecords horder hfree hnext hcell =>
    exact queueAccounts_flushed h hevents htickets hcount hrecords hfree hnext

theorem Moves.queueAccounts {s t : State} (m : Moves s t) (h : queueAccounts s) : queueAccounts t := by
  induction m with
  | refl => exact h
  | tail _ m ih => exact m.queueAccounts ih

/-! ## What a move takes out of the queue -/

/-- The records that leave the queue from `s` to `t` are those of the results placed (law 8). -/
def resultsAccount (s t : State) : Prop :=
  ∃ new, t.events.records = s.events.records ++ new
    ∧ (ticketsOf s.tx.records).Perm (resultTickets new ++ ticketsOf t.tx.records)

theorem resultsAccount_of_tickets {s t : State} (hrecords : ticketsOf t.tx.records = ticketsOf s.tx.records)
    (hevents : t.events = s.events) : resultsAccount s t :=
  ⟨[], by simp [hevents], by rw [hrecords]; exact .refl _⟩

theorem resultsAccount.trans {s t u : State} (h : resultsAccount s t) (h' : resultsAccount t u) : resultsAccount s u := by
  obtain ⟨new, he, hp⟩ := h
  obtain ⟨new', he', hp'⟩ := h'
  refine ⟨new ++ new', by rw [he', he, List.append_assoc], ?_⟩
  rw [resultTickets_append, List.append_assoc]
  exact hp.trans (hp'.append_left _)

theorem resultsAccount_offered {s t : State} {kind : EventKind} (hkind : kind.isResult = false)
    (h : sameQueue (offered kind s) t) : resultsAccount s t := by
  obtain ⟨hrecords, -, -, -, -, hevents⟩ := h
  rw [offered_cell] at hrecords
  unfold offered at hevents
  split at hevents
  · refine ⟨[{ kind := kind, lostBefore := s.events.pendingLost, frame := s.link.frame }], by rw [hevents]; rfl, ?_⟩
    rw [resultTickets_of_other hkind, hrecords]
    exact .refl _
  · exact ⟨[], by rw [hevents, List.append_nil], by rw [hrecords]; exact .refl _⟩

/-- A record that ends leaves its result in the same step (R73). -/
theorem resultsAccount_ended {s : State} (h : queueAccounts s) {q r : Record} (hq : q ∈ s.tx.records)
    (hticket : r.ticket = q.ticket) (outcome : ResultOutcome) : resultsAccount s (ended r outcome s) := by
  obtain ⟨a, b, hab, hne⟩ := split_at_record h.2.2.1.1 hq
  have hrecords : (ended r outcome s).tx.records = a ++ b := by
    unfold ended
    rw [hab]
    exact filter_ticket_split hne hticket
  refine ⟨[{ kind := resultOf r outcome, lostBefore := s.events.pendingLost, frame := s.link.frame }], rfl, ?_⟩
  rw [hrecords, hab]
  change (ticketsOf (a ++ q :: b)).Perm (r.ticket :: ticketsOf (a ++ b))
  rw [hticket]
  exact List.perm_middle.map _

theorem tickets_replaced (r : Record) (s : State) : ticketsOf (replaced r s).tx.records = ticketsOf s.tx.records := by
  refine (List.map_map ..).trans (List.map_congr_left fun o ho => ?_)
  change (if o.ticket = r.ticket then r else o).ticket = o.ticket
  split
  · next e => exact e.symm
  · rfl

theorem Move.results {s t : State} (m : Move s t) (h : Safety.queueAccounts s) : resultsAccount s t := by
  cases m with
  | other hs => exact resultsAccount_of_tickets (by rw [hs.1]) hs.2.2.2.2.2
  | released hs => exact resultsAccount_of_tickets (by rw [hs.1]) hs.2.2.2.2.2
  | offered kind hkind hs => exact resultsAccount_offered hkind hs
  | ended outcome hq hticket hpayload hends => exact resultsAccount_ended h hq hticket outcome
  | replaced hq hticket hpayload hnumber hrecords hfree hnext hcell hevents hput =>
    exact resultsAccount_of_tickets (by rw [hrecords, tickets_replaced]) hevents
  | ticked hs => exact resultsAccount_of_tickets (by rw [hs.1]; exact List.map_map ..) hs.2.2.2.2.2
  | flushed new hevents htickets hcount hrecords horder hfree hnext hcell =>
    exact ⟨new, hevents.1, by rw [htickets, hrecords]; simp⟩

theorem Moves.results {s t : State} (m : Moves s t) (h : Safety.queueAccounts s) : resultsAccount s t := by
  induction m with
  | refl => exact resultsAccount_of_tickets rfl rfl
  | tail ms m ih => exact ih.trans (m.results (Moves.queueAccounts ms h))

end Sys2Proof.Machine
end

section
/-! What every move keeps of the passes (laws 5, 6 and 7), and the operations of the Transmit Scheduler as moves. -/
namespace Sys2Proof.Machine

open Sys2Proof.Claims Sys2Proof.Safety

/-! ## The passes around one record -/

theorem retryTickets_split (a b : List Record) (q : Record) :
    retryTickets (a ++ q :: b) = retryTickets a ++ ((if q.state = .retry then [q.ticket] else []) ++ retryTickets b) := by
  by_cases h : q.state = .retry <;> simp [retryTickets, ticketsOf, h]

theorem retryTickets_append (a b : List Record) : retryTickets (a ++ b) = retryTickets a ++ retryTickets b := by
  simp [retryTickets, ticketsOf]

theorem ticket_ne_of_mem_retryTickets {records : List Record} {t : Ticket} (h : ∀ o ∈ records, o.ticket ≠ t) :
    ∀ x ∈ retryTickets records, x ≠ t := by
  intro x hx
  obtain ⟨o, ho, rfl⟩ := List.mem_map.1 hx
  exact h o (List.mem_filter.1 ho).1

/-- Where a record goes into RETRY, its ticket joins the tickets listed. -/
theorem retryTickets_into {a b : List Record} {q r : Record} (hq : q.state ≠ .retry) (hr : r.state = .retry) :
    (r.ticket :: retryTickets (a ++ q :: b)).Perm (retryTickets (a ++ r :: b)) := by
  rw [retryTickets_split, retryTickets_split, if_neg hq, if_pos hr]
  exact List.perm_middle.symm

/-- Where a record leaves RETRY or the queue, its ticket leaves the tickets listed. -/
theorem retryTickets_out {a b : List Record} {q : Record} (hne : ∀ o ∈ a ++ b, o.ticket ≠ q.ticket) :
    (retryTickets (a ++ q :: b)).filter (fun t => t != q.ticket) = retryTickets (a ++ b) := by
  have hkept : (retryTickets (a ++ b)).filter (fun t => t != q.ticket) = retryTickets (a ++ b) :=
    List.filter_eq_self.2 fun x hx => by simpa using ticket_ne_of_mem_retryTickets hne x hx
  rw [← hkept, retryTickets_split, retryTickets_append, List.filter_append, List.filter_append, List.filter_append]
  split <;> simp

/-- The number of SENDING records. -/
abbrev sendingCount (records : List Record) : Nat := (records.filter fun r => r.state == .sending).length

theorem sendingCount_split (a b : List Record) (q : Record) :
    sendingCount (a ++ q :: b) = sendingCount (a ++ b) + if q.state = .sending then 1 else 0 := by
  by_cases h : q.state = .sending <;> simp [sendingCount, h]
  omega

theorem apart_comm {a b : Record} (h : apart a b) : apart b a := by
  intro hb ha hbf haf
  have := h ha hb haf hbf
  rwa [meets, BitVec.and_comm] at this

/-- The cell that ends a pass names a SENDING record. -/
theorem lastCellSending_iff {s : State} :
    lastCellSending s ↔ ∀ x, passEnding s = some x → ∃ o ∈ s.tx.records, o.ticket = x ∧ o.state = .sending := by
  unfold lastCellSending
  rcases passEnding s with _ | x <;> simp

/-- A record whose pass ends with the cell being driven is SENDING (R69). -/
theorem passEnding_ne {s : State} (h : passesSound s) {q : Record} (hq : q ∈ s.tx.records) (hstate : q.state ≠ .sending) :
    passEnding s ≠ some q.ticket := by
  obtain ⟨hnd, -, -, -, -, hlast⟩ := h
  intro e
  obtain ⟨o, ho, hto, hso⟩ := lastCellSending_iff.1 hlast _ e
  exact hstate (eq_of_ticket hnd ho hq hto ▸ hso)

theorem passEnding_of_cell_none {s : State} (h : s.tx.cell = none) : passEnding s = none := by
  rw [passEnding, h]
  rfl

theorem passesSound_ended {s : State} (h : passesSound s) {q r : Record} (hq : q ∈ s.tx.records) (hticket : r.ticket = q.ticket)
    (hends : passEnding s ≠ some q.ticket) (outcome : ResultOutcome) : passesSound (ended r outcome s) := by
  obtain ⟨hnd, hsound, hapart, hone, hretry, hlast⟩ := h
  obtain ⟨a, b, hab, hne⟩ := split_at_record hnd hq
  have hrecords : (ended r outcome s).tx.records = a ++ b := by
    unfold ended
    rw [hab]
    exact filter_ticket_split hne hticket
  have hsub : (a ++ b).Sublist s.tx.records := by
    rw [hab]
    exact (List.sublist_cons_self q b).append_left a
  refine ⟨?_, ?_, ?_, ?_, ?_, lastCellSending_iff.2 fun x hx => ?_⟩
  · rw [hrecords]
    exact (hsub.map _).nodup hnd
  · rw [hrecords]
    exact fun o ho => hsound o (hsub.subset ho)
  · rw [hrecords]
    exact hapart.sublist hsub
  · unfold onePass
    rw [hrecords]
    exact (hsub.filter _).length_le.trans hone
  · unfold retryListed at hretry ⊢
    rw [hrecords]
    change (s.tx.retryOrder.filter fun t => t != r.ticket).Perm (retryTickets (a ++ b))
    rw [hab] at hretry
    rw [hticket, ← retryTickets_out hne]
    exact hretry.filter _
  · obtain ⟨o, ho, rfl, hso⟩ := lastCellSending_iff.1 hlast x hx
    refine ⟨o, ?_, rfl, hso⟩
    have hneq : o.ticket ≠ q.ticket := fun e => hends (hx.trans (congrArg some e))
    exact List.mem_filter.2 ⟨ho, by simpa [hticket] using hneq⟩

/-- The RETRY order that follows a record changed in its place lists the RETRY records. -/
theorem retryListed_replaced {s t : State} {a b : List Record} {q r : Record} (hne : ∀ o ∈ a ++ b, o.ticket ≠ q.ticket)
    (hticket : r.ticket = q.ticket) (hretry : s.tx.retryOrder.Perm (retryTickets (a ++ q :: b)))
    (horder : orderFollows q r s t) : t.tx.retryOrder.Perm (retryTickets (a ++ r :: b)) := by
  rcases horder with ⟨hstates, e⟩ | ⟨hqs, hrs, e⟩ | ⟨hrs, e⟩
  · rw [retryTickets_split] at hretry ⊢
    simpa only [e, hstates, hticket] using hretry
  · exact e.trans ((hretry.cons _).trans (retryTickets_into hqs hrs))
  · rw [e, retryTickets_split, if_neg hrs, List.nil_append, ← retryTickets_append, ← retryTickets_out hne, hticket]
    exact hretry.filter _

/-- A record is changed in its place. -/
theorem passesSound_replaced {s t : State} (h : passesSound s) {q r : Record} (hq : q ∈ s.tx.records) (hticket : r.ticket = q.ticket)
    (hrecords : t.tx.records = (replaced r s).tx.records) (hput : PutSound q r s t) : passesSound t := by
  obtain ⟨hr, happart, honly, horder, hends⟩ := hput
  obtain ⟨hnd, hsound, hapart, hone, hretry, hlast⟩ := h
  obtain ⟨a, b, hab, hne⟩ := split_at_record hnd hq
  have hplace : t.tx.records = a ++ r :: b := by
    rw [hrecords]
    unfold replaced
    rw [hab]
    exact replace_ticket_split hne hticket
  have hin (o : Record) : o ∈ a ++ b → o ∈ s.tx.records := by
    rw [hab]
    exact fun ho => (List.sublist_cons_self q b).append_left a |>.subset ho
  have happart' : ∀ o ∈ a ++ b, apart r o := fun o ho => happart o (hin o ho) (hne o ho)
  refine ⟨?_, ?_, ?_, ?_, ?_, lastCellSending_iff.2 fun x hx => ?_⟩
  · rw [hplace]
    rw [hab] at hnd
    simpa [hticket] using hnd
  · rw [hplace]
    intro o ho
    rcases List.mem_append.1 ho with ho | ho
    · exact hsound o (hin o (List.mem_append_left b ho))
    · rcases List.mem_cons.1 ho with rfl | ho
      · exact hr
      · exact hsound o (hin o (List.mem_append_right a ho))
  · rw [hab] at hapart
    rw [hplace]
    obtain ⟨ha, hqb, hcross⟩ := List.pairwise_append.1 hapart
    refine List.pairwise_append.2 ⟨ha, List.pairwise_cons.2 ⟨fun o ho => happart' o (List.mem_append_right a ho),
      (List.pairwise_cons.1 hqb).2⟩, fun x hx y hy => ?_⟩
    rcases List.mem_cons.1 hy with rfl | hy
    · exact apart_comm (happart' x (List.mem_append_left b hx))
    · exact hcross x hx y (List.mem_cons_of_mem q hy)
  · unfold onePass at hone ⊢
    rw [hplace]
    rw [hab] at hone
    change sendingCount (a ++ r :: b) ≤ 1
    change sendingCount (a ++ q :: b) ≤ 1 at hone
    rw [sendingCount_split] at hone ⊢
    split
    · next hs =>
      rcases honly hs with hqs | hnone
      · rw [if_pos hqs] at hone
        exact hone
      · have : sendingCount (a ++ b) = 0 := by
          refine List.length_eq_zero_iff.2 (List.filter_eq_nil_iff.2 fun o ho => ?_)
          simpa using hnone o (hin o ho)
        omega
    · omega
  · unfold retryListed at hretry ⊢
    rw [hab] at hretry
    rw [hplace]
    exact retryListed_replaced hne hticket hretry horder
  · rcases hends x hx with ⟨rfl, hs⟩ | ⟨hneq, hbefore⟩
    · exact ⟨r, hplace ▸ by simp, hticket, hs⟩
    · obtain ⟨o, ho, rfl, hso⟩ := lastCellSending_iff.1 hlast x hbefore
      refine ⟨o, ?_, rfl, hso⟩
      rw [hrecords]
      exact List.mem_map.2 ⟨o, ho, if_neg (hticket ▸ hneq)⟩

/-- A record that holds no destination against others is apart from them all. -/
theorem apart_of_not_inFlight {r : Record} (h : r.inFlight = false) (o : Record) : apart r o := by
  intro _ _ hr
  rw [h] at hr
  cases hr

/-- A record in flight stays apart from the others while its destinations stay. -/
theorem apart_of_inFlight {s : State} (h : passesSound s) {q r : Record} (hq : q ∈ s.tx.records) (hack : r.ackreq = q.ackreq)
    (hdest : r.dest = q.dest) (hflight : q.inFlight = true) : ∀ o ∈ s.tx.records, o.ticket ≠ q.ticket → apart r o := by
  obtain ⟨hnd, -, hapart, -⟩ := h
  intro o ho hne hra hoa hrf hof
  obtain ⟨a, b, hab, -⟩ := split_at_record hnd hq
  rw [hab] at hapart ho
  obtain ⟨-, hqb, hcross⟩ := List.pairwise_append.1 hapart
  rw [hdest]
  rcases List.mem_append.1 ho with ho | ho
  · exact apart_comm (hcross o ho q List.mem_cons_self) (hack ▸ hra) hoa hflight hof
  · rcases List.mem_cons.1 ho with rfl | ho
    · exact absurd rfl hne
    · exact (List.pairwise_cons.1 hqb).1 o ho (hack ▸ hra) hoa hflight hof

theorem passesSound_ticked {s t : State} (h : passesSound s) (hs : sameQueue { s with tx.records := s.tx.records.map ticked } t) :
    passesSound t := by
  refine passesSound_congr ?_ hs.1 hs.2.1 (.inr hs.2.2.2.2.1)
  obtain ⟨hnd, hsound, hapart, hone, hretry, hlast⟩ := h
  have htickets : (s.tx.records.map ticked).map (fun r => r.ticket) = s.tx.records.map fun r => r.ticket := List.map_map ..
  have hfilter (x : RecordState) :
      (s.tx.records.map ticked).filter (fun r => r.state == x) = (s.tx.records.filter fun r => r.state == x).map ticked :=
    List.filter_map ..
  refine ⟨?_, fun r' hr' => ?_, ?_, ?_, ?_, lastCellSending_iff.2 fun x hx => ?_⟩
  · exact htickets.symm ▸ hnd
  · obtain ⟨r, hr, rfl⟩ := List.mem_map.1 hr'
    exact hsound r hr
  · exact List.pairwise_map.2 hapart
  · unfold onePass
    rw [hfilter, List.length_map]
    exact hone
  · unfold retryListed at hretry ⊢
    rw [hfilter, List.map_map]
    exact hretry
  · obtain ⟨o, ho, hto, hso⟩ := lastCellSending_iff.1 hlast x hx
    exact ⟨ticked o, List.mem_map_of_mem ho, hto, hso⟩

/-- Every move keeps the passes sound. -/
theorem Move.passes {s t : State} (m : Move s t) (h : passesSound s) : passesSound t := by
  cases m with
  | other hs => exact passesSound_congr h hs.1 hs.2.1 (.inr hs.2.2.2.2.1)
  | released hs => exact passesSound_congr h hs.1 hs.2.1 (.inl hs.2.2.2.2.1)
  | offered kind hkind hs =>
    exact passesSound_congr h (by rw [hs.1, offered_cell]) (by rw [hs.2.1, offered_cell]) (.inr (by rw [hs.2.2.2.2.1, offered_cell]))
  | ended outcome hq hticket hpayload hends => exact passesSound_ended h hq hticket (hends h) outcome
  | replaced hq hticket hpayload hnumber hrecords hfree hnext hcell hevents hput => exact passesSound_replaced h hq hticket hrecords (hput h)
  | ticked hs => exact passesSound_ticked h hs
  | flushed new hevents htickets hcount hrecords horder hfree hnext hcell =>
    unfold passesSound onePass retryListed lastCellSending
    rw [hrecords, horder, passEnding_of_cell_none hcell]
    simp

theorem Moves.passes {s t : State} (m : Moves s t) (h : passesSound s) : passesSound t := by
  induction m with
  | refl => exact h
  | tail _ m ih => exact m.passes ih

/-! ## The operations of the Transmit Scheduler -/

theorem Moves.one {s t : State} (m : Move s t) : Moves s t := .single m

theorem Moves.other {s t : State} (htx : t.tx = s.tx) (hevents : t.events = s.events) : Moves s t :=
  .one (.other (sameQueue_of_eq htx hevents))

/-- What else changes before or after moves is no matter of theirs. -/
theorem Moves.before {s t u : State} (m : Moves t u) (htx : t.tx = s.tx) (hevents : t.events = s.events) : Moves s u :=
  (Moves.other htx hevents).trans m

theorem Moves.after {s t u : State} (m : Moves s t) (htx : u.tx = t.tx) (hevents : u.events = t.events) : Moves s u :=
  m.trans (Moves.other htx hevents)

theorem Moves.offer {s t : State} (kind : EventKind) (hkind : kind.isResult = false) (htx : t.tx = s.tx)
    (hevents : t.events = (Claims.offered kind s).events) : Moves s t :=
  .one (.offered kind hkind (sameQueue_of_eq (htx.trans (offered_cell kind s).symm) hevents))

theorem moves_endCell (s : State) : Moves s (endCell s) := by
  have hreleased : Moves s { s with tx.cell := none } := .one (.released (sameQueue_of_eq rfl rfl))
  rcases endCell_cases s with ⟨-, e⟩ | ⟨c, -, -, e⟩ | ⟨c, t, -, -, -, e⟩ | ⟨c, t, r, hcell, hends, hfound, e⟩
  · rw [e]
  · rw [e]
    exact hreleased
  · rw [e]
    exact hreleased
  · rw [e]
    obtain ⟨hr, rfl⟩ := findRecord_mem hfound
    have hended (o : ResultOutcome) : Moves s (ended { r with pass := none } o { s with tx.cell := none }) :=
      hreleased.tail (.ended (q := r) o hr rfl rfl fun _ => by simp [passEnding_of_cell_none])
    rcases endPass_cases r { s with tx.cell := none } with
      ⟨-, e⟩ | ⟨-, -, e⟩ | ⟨-, -, -, e⟩ | ⟨hack, hpending, -, e⟩ <;> rw [e]
    · exact hended _
    · exact hended _
    · exact hended _
    · refine .one (.replaced (q := r) (r := { r with pass := none, state := .awaiting, ackTimer := s.station.config.ackWait })
        hr rfl rfl (.inr rfl) rfl rfl rfl (.inl rfl) rfl fun h => ?_)
      have hsending : r.state = .sending := by
        by_contra hs
        exact passEnding_ne h hr hs (by simp [passEnding, hcell, hends])
      obtain ⟨-, hsub, -, -⟩ := h.2.1 r hr
      refine ⟨⟨by simp, hsub, fun hna => ?_, fun _ => ⟨hack, hpending⟩⟩,
        apart_of_inFlight h hr rfl rfl (by simp [Record.inFlight, hsending]), nofun,
        (.inl ⟨by simp [hsending], rfl⟩), fun x hx => ?_⟩
      · rw [hack] at hna
        cases hna
      · rw [passEnding_of_cell_none rfl] at hx
        cases hx

theorem moves_decidePermission (s : State) : Moves s (decidePermission s) := .other (by simp) (by simp)

theorem moves_applyNotice (n : Node) (k : Nibble) (s : State) : Moves s (applyNotice n k s) := by
  rcases applyNotice_cases n k s with ⟨-, e⟩ | ⟨r, hfound, hcases⟩
  · rw [e]
    exact .other rfl rfl
  · have hr : r ∈ s.tx.records := List.mem_of_find?_eq_some hfound
    have hmatch : r.matchesNotice n k = true := List.find?_some hfound
    simp only [Record.matchesNotice, Bool.and_eq_true] at hmatch
    obtain ⟨⟨⟨hack, hflight⟩, -⟩, -⟩ := hmatch
    have hopened : Moves s { s with tx.openSets := s.tx.openSets.set n.val (onlyNumber k) } :=
      .one (.other ⟨rfl, rfl, rfl, rfl, rfl, rfl⟩)
    rcases hcases with ⟨-, hs, e⟩ | ⟨hleft, e⟩
    · rw [e]
      exact hopened.tail (.ended (q := r) _ hr rfl rfl fun h => passEnding_ne h hr hs)
    · rw [e]
      refine hopened.tail (.replaced (q := r) (r := { r with pendingSet := without r.pendingSet (onlyNode n) }) hr rfl rfl (.inr rfl)
        rfl rfl rfl (.inr rfl) rfl fun h => ?_)
      obtain ⟨hpass, hsub, -, -⟩ := h.2.1 r hr
      refine ⟨⟨hpass, ?_, fun hna => ?_, fun hs => ⟨hack, hleft.resolve_right ?_⟩⟩, apart_of_inFlight h hr rfl rfl hflight, .inl,
        .inl ⟨.rfl, rfl⟩, fun x hx => ?_⟩
      · change (r.pendingSet &&& ~~~onlyNode n) &&& ~~~r.dest = 0
        have hz : r.pendingSet &&& ~~~r.dest = 0 := hsub
        rw [BitVec.and_assoc, BitVec.and_comm (~~~onlyNode n), ← BitVec.and_assoc, hz]
        simp
      · rw [show r.ackreq = false from hna] at hack
        cases hack
      · rcases hs with e | e <;> exact fun e' => nomatch e.symm.trans e'
      · by_cases hx' : x = r.ticket
        · refine .inl ⟨hx', ?_⟩
          by_contra hs
          exact passEnding_ne h hr hs (hx' ▸ hx)
        · exact .inr ⟨hx', hx⟩

theorem moves_expireRecord (t : Ticket) (s : State) : Moves s (expireRecord t s) := by
  rcases expireRecord_cases t s with e | ⟨r, hfound, hs, e⟩ <;> rw [e]
  obtain ⟨hr, -⟩ := findRecord_mem hfound
  exact .one (.ended _ hr rfl rfl fun h => passEnding_ne h hr (by simp [hs]))

theorem moves_judgeTimer (t : Ticket) (s : State) : Moves s (judgeTimer t s) := by
  rcases judgeTimer_cases t s with e | ⟨r, hfound, hs, ⟨-, e⟩ | ⟨-, e⟩⟩ <;> rw [e]
  · obtain ⟨hr, rfl⟩ := findRecord_mem hfound
    refine .one (.replaced (q := r) (r := { r with state := .retry, ackTimer := 0 }) hr rfl rfl (.inr rfl) rfl rfl rfl (.inr rfl) rfl
      fun h => ?_)
    obtain ⟨hpass, hsub, hnone, hwaits⟩ := h.2.1 r hr
    refine ⟨⟨?_, hsub, hnone, fun _ => hwaits (.inl hs)⟩, apart_of_inFlight h hr rfl rfl (by simp [Record.inFlight, hs]), nofun,
      .inr (.inl ⟨by simp [hs], rfl, ?_⟩), fun x hx => ?_⟩
    · simpa [hs] using hpass
    · exact List.perm_append_singleton r.ticket s.tx.retryOrder
    · refine .inr ⟨fun e => ?_, hx⟩
      exact passEnding_ne h hr (by simp [hs]) (e ▸ hx)
  · obtain ⟨hr, -⟩ := findRecord_mem hfound
    exact .one (.ended _ hr rfl rfl fun h => passEnding_ne h hr (by simp [hs]))

/-- A first pass is cut on a queue that lost no more than an open number (R96). -/
theorem cutFirstPass_queue (r : Record) (s : State) : ∃ u, sameQueue s u
    ∧ (cutFirstPass r s = ended { r with pass := none, attempts := r.attempts - 1 } .cancelled u
      ∨ cutFirstPass r s = replaced
          { r with pass := none, attempts := r.attempts - 1, state := .queued, number := none, cancelRequested := false } u) := by
  refine ⟨_, ?_, (cutFirstPass_cases r s).imp And.right And.right⟩
  split <;> exact ⟨rfl, rfl, rfl, rfl, rfl, rfl⟩

/-- The cut of a pass comes with the line released (R13, R96, R97). -/
theorem moves_cutPass {s : State} (hcell : s.tx.cell = none) : Moves s (cutPass s) := by
  rcases cutPass_cases s with ⟨-, e⟩ | ⟨r, hsending, e⟩
  · rw [e]
  obtain ⟨hr, hs⟩ := sendingRecord_mem hsending
  have hends (t : State) (ht : t.tx.cell = none) (x : Ticket) (hx : passEnding t = some x) : False := by
    rw [passEnding_of_cell_none ht] at hx
    cases hx
  rw [e]
  split
  · have hended (o : ResultOutcome) : Moves s (ended { r with pass := none, attempts := r.attempts - 1 } o s) :=
      .one (.ended (q := r) o hr rfl rfl fun _ he => hends s hcell _ he)
    rcases cutRetransmission_cases r s with ⟨-, e⟩ | ⟨-, -, e⟩ | ⟨hpending, -, e⟩ <;> rw [e]
    · exact hended _
    · exact hended _
    · refine .one (.replaced (q := r)
        (r := { r with pass := none, attempts := r.attempts - 1, state := .retry, ackTimer := 0, cancelRequested := false })
        hr rfl rfl (.inr rfl) rfl rfl rfl (.inr rfl) rfl fun h => ?_)
      obtain ⟨-, hsub, hnone, -⟩ := h.2.1 r hr
      refine ⟨⟨by simp, hsub, hnone, fun _ => ⟨?_, hpending⟩⟩, apart_of_inFlight h hr rfl rfl (by simp [Record.inFlight, hs]), nofun,
        .inr (.inl ⟨by simp [hs], rfl, .refl _⟩), fun x hx => (hends _ hcell x hx).elim⟩
      by_contra hna
      exact hpending (hnone (by simpa using hna))
  · obtain ⟨u, hquiet, hcut⟩ := cutFirstPass_queue r s
    have hucell : u.tx.cell = none := hquiet.2.2.2.2.1.trans hcell
    have hru : r ∈ u.tx.records := hquiet.1 ▸ hr
    have hclosed : Moves s u := .one (.other hquiet)
    rcases hcut with e | e <;> rw [e]
    · exact hclosed.tail (.ended (q := r) _ hru rfl rfl fun _ he => hends u hucell _ he)
    · refine hclosed.tail (.replaced (q := r)
        (r := { r with pass := none, attempts := r.attempts - 1, state := .queued, number := none, cancelRequested := false })
        hru rfl rfl (.inl rfl) rfl rfl rfl (.inr rfl) rfl fun h => ?_)
      obtain ⟨-, hsub, hnone, -⟩ := h.2.1 r hru
      exact ⟨⟨by simp, hsub, hnone, nofun⟩, fun o _ _ => apart_of_not_inFlight rfl o, nofun, .inl ⟨by simp [hs], rfl⟩,
        fun x hx => (hends _ hucell x hx).elim⟩

theorem moves_cancelRecord {r : Record} {s : State} (hr : r ∈ s.tx.records) : Moves s (cancelRecord r s).2 := by
  unfold cancelRecord
  rw [finishRecord_eq_ended, putRecord_eq_replaced]
  split
  · next hs =>
    refine .one (.replaced (q := r) (r := { r with cancelRequested := true }) hr rfl rfl (.inr rfl) rfl rfl rfl (.inr rfl) rfl
      fun h => ⟨h.2.1 r hr, apart_of_inFlight h hr rfl rfl (by simp [Record.inFlight, hs]), fun _ => .inl hs,
        .inl ⟨.rfl, rfl⟩, fun x hx => ?_⟩)
    by_cases hx' : x = r.ticket
    · exact .inl ⟨hx', hs⟩
    · exact .inr ⟨hx', hx⟩
  · next hs => exact .one (.ended _ hr rfl rfl fun h => passEnding_ne h hr hs)

/-! ## Boundaries and their work -/

theorem moves_announceBoundary (begins : Bool) (s : State) : Moves s (announceBoundary begins s) := by
  have hevents : (announceBoundary begins s).events = s.events := by simp
  have htx : (announceBoundary begins s).tx = { s.tx with records := s.tx.records.map ticked } := by
    unfold announceBoundary
    dsimp only
    rw [show (Record.tick : Record → Record) = ticked from funext tick_eq_ticked]
    split <;> simp
  exact .one (.ticked (sameQueue_of_eq htx hevents))

/-- Results placed leave the Transmit Scheduler as it is. -/
theorem flushed_tx (records : List Record) (s : State) :
    (records.foldl (fun t r => pushEvent (r.result .flushed) t) s).tx = s.tx := by
  induction records generalizing s with
  | nil => rfl
  | cons r records ih => exact ih _

theorem moves_completeDetach (s : State) : Moves s (completeDetach s) := by
  obtain ⟨new, hgrow, htickets, hcount⟩ := flushed_events s.tx.records s
  have hflushed : Moves s (clearForDetach (flushRecords s)) := by
    refine .one (.flushed new hgrow htickets hcount rfl rfl rfl ?_ rfl)
    exact (congrArg Scheduler.nextTicket (flushed_tx s.tx.records s) :)
  have hoffered : Moves (clearForDetach (flushRecords s)) (completeDetach s) := by
    refine .offer (.detached s.tx.records.length) rfl ?_ ?_
    · exact (congrArg State.tx (offerEvent_eq_offered _ _)).trans (offered_cell _ _)
    · change (offerEvent (.detached s.tx.records.length) (clearForDetach (flushRecords s))).events = _
      rw [offerEvent_eq_offered]
  exact hflushed.trans hoffered

theorem moves_switchMap (s : State) : Moves s (switchMap s) := by
  unfold switchMap
  split
  · exact .other (by simp) (by simp)
  · next p hp =>
    dsimp only
    refine .offer (.mapApplied p.map.generation p.effective) rfl ?_ ?_
    · split <;> simp
    · simp only [closeMapWork_frame, offerEvent_eq_offered]
      split <;> exact offered_events_congr _ rfl rfl

theorem moves_doWork (w : Work) (s : State) : Moves s (doWork w s) := by
  cases w with
  | lifetime t => exact moves_expireRecord t s
  | ackTimer t => exact moves_judgeTimer t s
  | reassembly n => exact .other (by simp [doWork]) (by simp [doWork])
  | mapSwitch => exact moves_switchMap s
  | completion => exact moves_completeDetach s

theorem moves_takeWork {s u : State} (m : Moves s u) (w : Work) (n : Nat) : Moves s (takeWork w { u with choices := n }) := by
  have hmarked : Moves u { u with choices := n, due := u.due.erase w, schedulerBegun := u.schedulerBegun || beginsScheduler w u } :=
    .other rfl rfl
  exact (m.trans hmarked).trans (moves_doWork w _)

theorem moves_settle (s : State) : Moves s (settle s) :=
  settle_keeps (P := Moves s) (fun w _ n _ m => moves_takeWork m w n) s .refl

theorem moves_commandedWork (w : Work) (s : State) : Moves s (takeWork w (beforeWork w s)) :=
  moves_takeWork (beforeWork_keeps (P := Moves s) (fun v _ n _ m => moves_takeWork m v n) w s .refl) w (beforeWork w s).choices

end Sys2Proof.Machine
end

section
/-! What a command does to the outbound queue: moves, at most one request, or a slot that is driven; and the laws that follow (laws
1, 2, 4 to 8, 10 and 11). -/
namespace Sys2Proof.Machine

open Sys2Proof.Claims Sys2Proof.Safety

/-! ## The link's events as moves -/

theorem moves_passTime (count : Nat) (s : State) : Moves s (passTime count s) := by
  unfold passTime
  dsimp only
  (repeat' split)
  · exact (moves_endCell s).trans (moves_decidePermission _)
  · exact moves_decidePermission s
  · exact moves_endCell s
  · exact .refl

theorem moves_masterBoundary (s : State) : Moves s (masterBoundary s) := by
  unfold masterBoundary
  dsimp only
  split
  · exact (moves_endCell s).trans (moves_announceBoundary _ _)
  · exact (Moves.after (moves_endCell s) (by simp [beginCount]) (by simp [beginCount])).trans (moves_announceBoundary _ _)

theorem moves_reportLoss (cause : LossCause) {s : State} (hcell : s.tx.cell = none) : Moves s (reportLoss cause s) := by
  have hoffer (u : State) : Moves u (offered (.linkDown cause) u) := .offer _ rfl (offered_cell _ u) rfl
  obtain ⟨n, e | e⟩ := reportLoss_cases cause s <;> rw [e]
  · have hdrawn : Moves s (offered (.linkDown cause) { s with choices := n }) :=
      Moves.before (hoffer _) rfl rfl
    exact hdrawn.trans (moves_cutPass (by rw [offered_cell]; exact hcell))
  · have hdrawn : Moves s (cutPass { s with choices := n }) :=
      Moves.before (moves_cutPass hcell) rfl rfl
    exact hdrawn.trans (hoffer _)

theorem moves_lockLoss (cause : LossCause) {enter : State → State} (henter : ∀ u, Moves u (enter u)) (s : State) :
    Moves s (lockLoss cause enter s) := by
  unfold lockLoss
  dsimp only
  have hlost : Moves s { s with
      link.permission := false, link.decisionDue := false, tx.cell := none, counters.lockLosses := bump s.counters.lockLosses } :=
    .one (.released (sameQueue_of_eq rfl rfl))
  have hentered := (hlost.trans (moves_reportLoss cause rfl)).trans (henter _)
  split
  · exact hentered.trans (moves_completeDetach _)
  · exact hentered

theorem moves_takeReference (s : State) : Moves s (takeReference s) := .other rfl rfl

theorem moves_enterSearch (s : State) : Moves s (enterSearch s) := .other rfl rfl

theorem moves_countBoundary (lock : LockState) (missed : Nat) (s : State) : Moves s (countBoundary lock missed s) :=
  Moves.before (moves_announceBoundary _ _) rfl rfl

theorem moves_enterLocked (s : State) : Moves s (enterLocked s) := by
  unfold enterLocked
  dsimp only
  rw [offerEvent_eq_offered]
  have hplaced := Moves.offer (s := { openFrame s with link.lock := .locked, link.missed := 0 }) (.linkUp s.map.masterNode) rfl
    (offered_cell _ _) rfl
  have hopened : Moves s { openFrame s with link.lock := .locked, link.missed := 0 } := Moves.other rfl rfl
  exact (hopened.trans hplaced).trans (moves_announceBoundary _ _)

theorem moves_observeMark (count : Nat) (s : State) : Moves s (observeMark count s) := by
  unfold observeMark
  split
  · exact .refl
  · exact .refl
  · exact moves_takeReference s
  · split
    · exact moves_enterLocked s
    · exact moves_takeReference s
  · dsimp only
    split
    · exact (moves_passTime count s).trans (moves_countBoundary _ _ _)
    · exact (moves_passTime count s).trans (moves_lockLoss _ moves_takeReference _)
  · dsimp only
    split
    · exact (moves_passTime count s).trans (moves_countBoundary _ _ _)
    · exact (moves_passTime count s).trans (moves_lockLoss _ moves_takeReference _)

theorem moves_missMark (s : State) : Moves s (missMark s) := by
  unfold missMark
  split
  · exact .refl
  · exact .refl
  · exact .refl
  · exact moves_enterSearch s
  · exact (moves_passTime _ s).trans (moves_countBoundary _ _ _)
  · dsimp only
    split
    · exact (moves_passTime _ s).trans (moves_countBoundary _ _ _)
    · exact (moves_passTime _ s).trans (moves_lockLoss _ moves_enterSearch _)

theorem moves_loseClock (s : State) : Moves s (loseClock s) := by
  unfold loseClock
  split
  · exact .refl
  · exact .refl
  · exact .refl
  · exact moves_enterSearch s
  · exact moves_lockLoss _ moves_enterSearch s
  · exact moves_lockLoss _ moves_enterSearch s

theorem moves_openSlot (slot : Slot) (s : State) : Moves s (openSlot slot s) := by
  unfold openSlot
  dsimp only
  split
  · exact Moves.after (moves_endCell s) rfl rfl
  · exact Moves.after ((moves_endCell s).trans (moves_decidePermission _)) rfl rfl

theorem moves_followMap (n : Node) (c : ControlContent) (s : State) : Moves s (followMap n c s) := by
  by_cases hu : unusable c
  · have : usableContent c ≠ true := fun h => (usableContent_iff c).1 h hu
    unfold followMap
    dsimp only
    rw [if_neg this]
    exact .other rfl rfl
  · rcases hp : c.carriesPending with _ | _
    · rw [followMap_current hu hp]
      have hjudged : Moves s (pendingJudged n c s) := .other rfl rfl
      have hadopted : Moves (pendingJudged n c s) (adoptMap c (pendingJudged n c s)) := by
        rcases adoptMap_cases c (pendingJudged n c s) with ⟨-, e⟩ | ⟨-, e⟩ <;> rw [e]
        exact Moves.offer _ rfl (offered_cell _ _) (offered_events_congr _ rfl rfl)
      exact Moves.after (hjudged.trans hadopted) rfl rfl
    · rw [followMap_pending hu hp]
      exact .other rfl rfl

theorem moves_contentStep (n : Node) (c : Cell) (s : State) : Moves s (contentStep n c s) := by
  unfold contentStep
  split
  · split
    · exact Moves.before (moves_followMap n _ _) rfl rfl
    · exact .refl
  · split
    · exact .other (by simp) (by simp)
    · exact .refl

theorem moves_epochStep (n : Node) (e : Byte) (s : State) : Moves s (epochStep n e s) := by
  rcases epochStep_cases n e s with ⟨-, h⟩ | ⟨-, h⟩
  · rw [h]
  · rw [h]
    dsimp only
    split
    · exact .other rfl rfl
    · exact .offer _ rfl (offered_cell _ _) (offered_events_congr _ rfl rfl)

theorem moves_handOff (n : Node) (c : Cell) (s : State) : Moves s (handOff n c s) := by
  rw [handOff_eq]
  refine Relation.ReflTransGen.trans ?_ (moves_contentStep n c _)
  have hepoch : Moves s (epochStep n c.epoch { s with counters.good := up s.counters.good }) :=
    Moves.before (moves_epochStep n c.epoch _) rfl rfl
  unfold noticeStep
  split
  · exact hepoch.trans (moves_applyNotice n c.ackNumber _)
  · exact hepoch

theorem moves_finishSlot (slot : Slot) (image : List Byte) (s : State) : Moves s (finishSlot slot image s) := by
  have hjudged (u : State) : Moves u (judgeImage slot image u) := by
    unfold judgeImage
    dsimp only
    (repeat' split)
    · exact .other rfl rfl
    · exact .other rfl rfl
    · exact .other rfl rfl
    · exact .other rfl rfl
    · exact moves_handOff _ _ u
  unfold finishSlot
  dsimp only
  have hsampled : Moves s (judgeImage slot image (sampled slot s)) := Moves.before (hjudged _) rfl rfl
  split
  · exact hsampled.trans (moves_decidePermission _)
  · exact hsampled

/-! ## What a command does to the outbound queue -/

/-- What a command does to the outbound queue and the events. -/
inductive Outbound (c : Instr) (s t : State) : Prop
  /-- moves alone -/
  | moved (m : Moves s t)
  /-- a request is executed -/
  | executed (he : Executed s t)
  /-- a reset takes effect (R164, R165) -/
  | reset (hc : (∃ straps, c = .pinResetRelease straps ∧ s.phase = .held)
        ∨ ∃ reply, s.host.sending = some reply ∧ reply.resets = true ∧ (c = .resetTakesEffect ∨ c = .replyTransmissionEnd))
      (htx : t.tx = State.reset.tx) (hevents : t.events = State.reset.events)
  /-- a slot is driven (R61, R70) -/
  | driven (slot : Slot) (u : State) (hc : c = .slotStart slot) (hu : u = openSlot slot (settle s)) (m : Moves s u)
      (hdrives : drivesSlot slot u = true) (ht : t = transmitInSlot slot u)

theorem Effect.outbound {c : Instr} {s t : State} (e : Effect c s t) : Outbound c s t := by
  have hsettled := moves_settle s
  cases e with
  | line h cs ht => exact .moved (ht ▸ .other rfl rfl)
  | executed hp he => exact .executed he
  | reset reply hs hr hc ht => exact .reset (.inr ⟨reply, hs, hr, hc⟩) (by rw [ht]; rfl) (by rw [ht]; rfl)
  | pinReset straps hc hp ht => exact .reset (.inl ⟨straps, hc, hp⟩) (by rw [ht]; rfl) (by rw [ht]; rfl)
  | held ht => exact .moved (ht ▸ .one (.released (sameQueue_of_eq rfl rfl)))
  | started hp ht => exact .moved (ht ▸ .other rfl rfl)
  | work w hw ht => exact .moved (ht ▸ moves_commandedWork w s)
  | settled ht => exact .moved (ht ▸ hsettled)
  | boundary hl ht => exact .moved (ht ▸ hsettled.trans (moves_masterBoundary _))
  | mark count ht => exact .moved (ht ▸ hsettled.trans (moves_observeMark _ _))
  | missed ht => exact .moved (ht ▸ hsettled.trans (moves_missMark _))
  | clock ht => exact .moved (ht ▸ hsettled.trans (moves_loseClock _))
  | slot slot hc hstart ht =>
    have hopened := hsettled.trans (moves_openSlot slot _)
    unfold startSlot at ht
    dsimp only at ht
    split at ht
    · next hdrives => exact .driven slot _ hc rfl hopened hdrives ht
    · exact .moved (ht ▸ Moves.after hopened rfl rfl)
  | passEnd cell hcell position ht =>
    exact .moved (ht ▸ hsettled.trans (Moves.before (moves_endCell _) rfl rfl))
  | cell slot image hreceiving ht => exact .moved (ht ▸ hsettled.trans (moves_finishSlot _ _ _))

/-! ## What is sent in a slot -/

/-- What is sent in a driven slot: a cell of no record; the next cell of the record SENDING; with none SENDING the first cell of the
record first in the RETRY order, or of an eligible record (R61, R70). -/
theorem transmitInSlot_cases (slot : Slot) (s : State) :
    (∃ c, transmitInSlot slot s = driveCell slot c none s)
      ∨ (∃ r p, sendingRecord s = some r ∧ r.pass = some p ∧ transmitInSlot slot s = sendNextCell slot r p s)
      ∨ (∃ r, sendingRecord s = none ∧ earliestRetry s = some r ∧ transmitInSlot slot s = startRetransmission slot r s)
      ∨ ∃ r older, sendingRecord s = none ∧ r ∈ s.tx.records ∧ eligible older r s = true
          ∧ transmitInSlot slot s = startFirstPass slot r s := by
  have hold (cls : MsgClass) (older records : List Record) (r : Record) (h : oldestEligible cls s older records = some r) :
      r ∈ records ∧ ∃ before, eligible before r s = true := by
    induction records generalizing older with
    | nil => cases h
    | cons m rest ih =>
      unfold oldestEligible at h
      split at h
      · next hm =>
        obtain rfl : m = r := Option.some.inj h
        exact ⟨List.mem_cons_self, older, hm.2⟩
      · obtain ⟨hmem, hel⟩ := ih _ h
        exact ⟨List.mem_cons_of_mem m hmem, hel⟩
  unfold transmitInSlot
  split
  · exact .inl ⟨_, rfl⟩
  unfold chooseCell
  split
  · next r hr =>
    split
    · next p hp => exact .inr (.inl ⟨r, p, hr, hp, rfl⟩)
    · exact .inl ⟨_, rfl⟩
  next hnone =>
  split
  · unfold chooseNew
    split
    · next r hr => exact .inr (.inr (.inl ⟨r, hnone, hr, rfl⟩))
    · split
      · next r hr =>
        obtain ⟨hmem, before, hel⟩ := hold _ _ _ r hr
        exact .inr (.inr (.inr ⟨r, before, hnone, hmem, hel, rfl⟩))
      · split
        · next r hr =>
          obtain ⟨hmem, before, hel⟩ := hold _ _ _ r hr
          exact .inr (.inr (.inr ⟨r, before, hnone, hmem, hel, rfl⟩))
        · exact .inl ⟨_, rfl⟩
  · exact .inl ⟨_, rfl⟩

/-- What sending a cell does to the queue: nothing, or `q` gives its place to `r`; the cell driven stands in the slot and ends the
pass of no other record. -/
structure Sent (slot : Slot) (q r : Record) (s t : State) : Prop where
  mem : q ∈ s.tx.records
  ticket : r.ticket = q.ticket
  payload : r.payload = q.payload
  records : t.tx.records = (replaced r s).tx.records
  free : t.tx.freeBlocks = s.tx.freeBlocks
  next : t.tx.nextTicket = s.tx.nextTicket
  events : t.events = s.events
  cell : ∃ c, t.tx.cell = some c ∧ c.slot = slot ∧ (c.endsPassOf = none ∨ c.endsPassOf = some q.ticket)
  put : passesSound s → PutSound q r s t

theorem sent_sendNextCell {slot : Slot} {q r : Record} {p : Pass} {s u : State} (hq : q ∈ s.tx.records) (hticket : r.ticket = q.ticket)
    (hpayload : r.payload = q.payload) (hstate : r.state = .sending) (hrecords : u.tx.records = s.tx.records)
    (hfree : u.tx.freeBlocks = s.tx.freeBlocks) (hnext : u.tx.nextTicket = s.tx.nextTicket) (hevents : u.events = s.events)
    (hsound : passesSound s → without r.pendingSet r.dest = 0 ∧ (r.ackreq = false → r.pendingSet = 0))
    (haway : passesSound s → ∀ o ∈ s.tx.records, o.ticket ≠ q.ticket → apart r o)
    (honly : q.state = .sending ∨ ∀ o ∈ s.tx.records, o.state ≠ .sending)
    (horder : passesSound s → orderFollows q r s u) :
    ∃ r', r'.number = r.number ∧ r'.dest = r.dest ∧ Sent slot q r' s (sendNextCell slot r p u) := by
  refine ⟨{ r with pass := some { p with nextIndex := p.nextIndex + 1 } }, rfl, rfl,
    { mem := hq, ticket := hticket, payload := hpayload, free := hfree, next := hnext, events := hevents,
      records := ?_, cell := ⟨_, rfl, rfl, ?_⟩, put := fun h => ?_ }⟩
  · unfold sendNextCell
    rw [putRecord_eq_replaced]
    change (replaced _ u).tx.records = _
    unfold replaced
    rw [hrecords]
  · split
    · exact .inr (congrArg some hticket)
    · exact .inl rfl
  · obtain ⟨hsub, hnone⟩ := hsound h
    refine ⟨⟨by simp [hstate], hsub, hnone, fun hs => ?_⟩, haway h, fun _ => honly, horder h, fun x hx => .inl ⟨?_, hstate⟩⟩
    · rcases hs with e | e <;> exact nomatch hstate.symm.trans e
    · change (if _ then some r.ticket else none) = some x at hx
      split at hx
      · exact (Option.some.inj hx).symm.trans hticket
      · cases hx

/-- Where the destinations leave a number closed, the number drawn is closed for them all (R65). -/
theorem nextNumber_closed {dest : NodeSet} {s : State}
    (h : ∃ k : Fin 16, ∀ n : Node, dest.getLsbD n.val = true → (s.tx.openSets.get n).getLsbD k.val = false) (d : Node)
    (hd : dest.getLsbD d.val = true) : (s.tx.openSets.get d).getLsbD (nextNumber dest s).toNat = false := by
  obtain ⟨k, hk⟩ := h
  have hclosed : (openUnion dest s).getLsbD k.val = false := by
    rw [← Bool.not_eq_true, openUnion_getLsbD]
    rintro ⟨n, hn, hopen⟩
    rw [hk n hn] at hopen
    cases hopen
  let first : Nibble := s.tx.lastNumber + 1
  have hreached : first + BitVec.ofNat 4 (BitVec.ofNat 4 k.val - first).toNat = BitVec.ofNat 4 k.val := by
    rw [BitVec.ofNat_toNat, BitVec.setWidth_eq, BitVec.add_comm, BitVec.sub_add_cancel]
  obtain ⟨j, -, e, hfree, -⟩ := drawNumber_spec (openUnion dest s) 16 first
    ⟨(BitVec.ofNat 4 k.val - first).toNat, (BitVec.ofNat 4 k.val - first).isLt, by
      rw [hreached, BitVec.toNat_ofNat, Nat.mod_eq_of_lt k.isLt]
      exact hclosed⟩
  rw [← e] at hfree
  have hnot : ¬∃ n : Node, dest.getLsbD n.val = true
      ∧ (s.tx.openSets.get n).getLsbD (nextNumber dest s).toNat = true := by
    rw [← openUnion_getLsbD, Bool.not_eq_true]
    exact hfree
  by_contra hopen
  exact hnot ⟨d, hd, by simpa using hopen⟩

/-- What is sent for a record: the cell is its, and a number it did not bear lies in none of the open-number sets of its
destinations. -/
abbrev SentNumbered (slot : Slot) (q : Record) (s t : State) : Prop :=
  ∃ r, Sent slot q r s t
    ∧ (r.number = q.number
      ∨ ∀ k, r.number = some k → ∀ d : Node, r.dest.getLsbD d.val = true → (s.tx.openSets.get d).getLsbD k.toNat = false)

theorem sent_startRetransmission (slot : Slot) {r : Record} {s : State} (hnone : sendingRecord s = none)
    (hretry : earliestRetry s = some r) : SentNumbered slot r s (startRetransmission slot r s) := by
  unfold earliestRetry at hretry
  split at hretry
  · cases hretry
  next x order horder =>
  obtain ⟨hr, rfl⟩ := findRecord_mem hretry
  have hstate (h : passesSound s) : r.state = .retry := by
    obtain ⟨hnd, -, -, -, hlisted, -⟩ := h
    have hx : r.ticket ∈ retryTickets s.tx.records := hlisted.subset (horder ▸ List.mem_cons_self)
    obtain ⟨o, ho, hto⟩ := List.mem_map.1 hx
    obtain ⟨hom, hos⟩ := List.mem_filter.1 ho
    rw [← eq_of_ticket hnd hom hr hto]
    simpa using hos
  obtain ⟨r', hn, -, hsent⟩ := sent_sendNextCell (slot := slot) (q := r)
    (r := { r with state := .sending, attempts := r.attempts + 1, pass := some ⟨.retransmission, r.pendingSet, 0⟩ })
    (p := ⟨.retransmission, r.pendingSet, 0⟩)
    (u := { s with
      tx.retryOrder := s.tx.retryOrder.filter fun t => t != r.ticket
      counters.retransmissions := bump s.counters.retransmissions })
    hr rfl rfl rfl rfl rfl rfl rfl (fun h => ⟨(h.2.1 r hr).2.1, (h.2.1 r hr).2.2.1⟩)
    (fun h => apart_of_inFlight h hr rfl rfl (by simp [Record.inFlight, hstate h])) (.inr (sendingRecord_eq_none hnone))
    fun _ => .inr (.inr ⟨nofun, rfl⟩)
  exact ⟨r', hsent, .inl hn⟩

theorem sent_startFirstPass (slot : Slot) {r : Record} {older : List Record} {s : State} (hnone : sendingRecord s = none)
    (hr : r ∈ s.tx.records) (hel : eligible older r s = true) : SentNumbered slot r s (startFirstPass slot r s) := by
  obtain ⟨hqueued, -, halone, hclosed⟩ := (eligible_iff older r s).1 hel
  have haway (o : Record) (ho : o ∈ s.tx.records) (hra : r.ackreq = true) (hoa : o.ackreq = true) (hof : o.inFlight = true) :
      meets r.dest o.dest = false := by
    have hbegun : begun o := by
      simp only [Record.inFlight, Bool.or_eq_true, beq_iff_eq] at hof
      tauto
    rw [← Bool.not_eq_true, meets_iff_share]
    rintro ⟨n, hn, hn'⟩
    exact halone hra o ho hoa hbegun ⟨n, hn', hn⟩
  have hqr : r.state ≠ .retry := by
    rw [hqueued]
    decide
  unfold startFirstPass
  dsimp only
  split
  · next hack =>
    obtain ⟨r', hn, hd, hsent⟩ := sent_sendNextCell (slot := slot) (q := r)
      (r := { r with
        state := .sending, attempts := r.attempts + 1, pass := some ⟨.first, r.dest, 0⟩, number := some (nextNumber r.dest s) })
      (p := ⟨.first, r.dest, 0⟩) (u := assignNumber (nextNumber r.dest s) r.dest s)
      hr rfl rfl rfl rfl rfl rfl rfl (fun h => ⟨(h.2.1 r hr).2.1, (h.2.1 r hr).2.2.1⟩)
      (fun _ o ho _ hra hoa _ hof => haway o ho hra hoa hof) (.inr (sendingRecord_eq_none hnone)) fun _ => .inl ⟨iff_of_false nofun hqr, rfl⟩
    refine ⟨r', hsent, .inr fun k hk d hdk => ?_⟩
    obtain rfl : nextNumber r.dest s = k := Option.some.inj (hn.symm.trans hk)
    exact nextNumber_closed (hclosed hack) d (hd ▸ hdk)
  · obtain ⟨r', hn, -, hsent⟩ := sent_sendNextCell (slot := slot) (q := r)
      (r := { r with state := .sending, attempts := r.attempts + 1, pass := some ⟨.first, r.dest, 0⟩ })
      (p := ⟨.first, r.dest, 0⟩) (u := s)
      hr rfl rfl rfl rfl rfl rfl rfl (fun h => ⟨(h.2.1 r hr).2.1, (h.2.1 r hr).2.2.1⟩)
      (fun _ o ho _ hra hoa _ hof => haway o ho hra hoa hof) (.inr (sendingRecord_eq_none hnone)) fun _ => .inl ⟨iff_of_false nofun hqr, rfl⟩
    exact ⟨r', hsent, .inl hn⟩

/-- In a driven slot no record changes and the cell ends no pass, or one record does and the cell is its. -/
theorem transmitInSlot_sent (slot : Slot) (s : State) :
    (∃ c, transmitInSlot slot s = driveCell slot c none s) ∨ ∃ q, SentNumbered slot q s (transmitInSlot slot s) := by
  rcases transmitInSlot_cases slot s with e | ⟨r, p, hsending, hp, e⟩ | ⟨r, hnone, hretry, e⟩ | ⟨r, older, hnone, hr, hel, e⟩
  · exact .inl e
  · obtain ⟨hr, hs⟩ := sendingRecord_mem hsending
    obtain ⟨r', hn, -, hsent⟩ := sent_sendNextCell (slot := slot) (p := p) (u := s) hr rfl rfl hs rfl rfl rfl rfl
      (fun h => ⟨(h.2.1 r hr).2.1, (h.2.1 r hr).2.2.1⟩) (fun h => apart_of_inFlight h hr rfl rfl (by simp [Record.inFlight, hs]))
      (.inl hs) fun _ => .inl ⟨.rfl, rfl⟩
    exact .inr ⟨r, r', e ▸ hsent, .inl hn⟩
  · exact .inr ⟨r, e ▸ sent_startRetransmission slot hnone hretry⟩
  · exact .inr ⟨r, e ▸ sent_startFirstPass slot hnone hr hel⟩

end Sys2Proof.Machine
end

section
/-! The laws of the outbound queue: driven slots (law 10), message numbers (law 11), the accounts and the passes (laws 1, 2, 4 to 7),
and one result for every record (law 8). -/
namespace Sys2Proof.Machine

open Sys2Proof.Claims Sys2Proof.Safety

/-! ## Requests -/

/-- SEND's acceptance (R58) as the outbound queue sees it. -/
structure Accepted (s t : State) (r : Record) : Prop where
  place : s.events.heldCount < 32
  room : r.blocks ≤ s.tx.freeBlocks
  ticket : r.ticket = assignedTicket s
  queued : r.state = .queued
  noPass : r.pass = none
  noNumber : r.number = none
  pending : r.pendingSet = if r.ackreq then r.dest else 0
  records : t.tx.records = s.tx.records ++ [r]
  order : t.tx.retryOrder = s.tx.retryOrder
  free : t.tx.freeBlocks = s.tx.freeBlocks - r.blocks
  next : t.tx.nextTicket = nextTicketAfter (assignedTicket s)
  cell : t.tx.cell = s.tx.cell
  events : t.events = { s.events with heldCount := s.events.heldCount + 1 }

/-- FETCH_EVENT's answer with an event (R124) as the outbound queue sees it. -/
structure Fetched (s t : State) (e : EventRecord) (rest : List EventRecord) : Prop where
  oldest : s.events.records = e :: rest
  tx : t.tx = s.tx
  records : t.events.records = rest
  held : t.events.heldCount = s.events.heldCount - if e.kind.isResult then 1 else 0
  others : t.events.nonResultCount = s.events.nonResultCount - if e.kind.isResult then 0 else 1

/-- What a request does to the outbound queue: moves, or a record accepted, or an event fetched. -/
inductive Asked (s t : State) : Prop
  | moved (m : Moves s t)
  | accepted (r : Record) (h : Accepted s t r)
  | fetched (e : EventRecord) (rest : List EventRecord) (h : Fetched s t e rest)

theorem Asked.same {s t : State} (h : sameQueue s t) : Asked s t := .moved (.one (.other h))

theorem Asked.none (s : State) : Asked s s := .moved .refl

theorem asked_send (params : List Byte) (s : State) : Asked s (requestSend params s).2.2 := by
  unfold requestSend refuse
  dsimp only
  split
  · exact .none s
  · next cls hcls =>
    split
    · exact .none s
    · split
      · exact .none s
      · split
        · exact .none s
        · next hplace =>
          split
          · exact .none s
          · next hroom =>
            exact .accepted (newRecord (assignedTicket s) cls (sendOperand params))
              { place := by simpa [Config.resultPlaces] using hplace
                room := Nat.le_of_not_lt hroom
                ticket := rfl, queued := rfl, noPass := rfl, noNumber := rfl, pending := rfl, records := rfl, order := rfl
                free := rfl, next := rfl, cell := rfl, events := rfl }

theorem asked_fetchEvent (s : State) : Asked s (requestFetchEvent s).2.2 := by
  unfold requestFetchEvent
  split
  · exact .none s
  · next e rest hrecords =>
    refine .fetched e rest { oldest := hrecords, tx := ?_, records := ?_, held := ?_, others := ?_ } <;> dsimp only <;> split <;>
      simp [*]

theorem sameQueue_applyConfig (c : Configuration) (s : State) : sameQueue s (applyConfig c s) := by
  have hforgotten : sameQueue s (forgetNumbers c s) := by
    unfold forgetNumbers
    dsimp only
    (repeat' split) <;> exact ⟨rfl, rfl, rfl, rfl, rfl, rfl⟩
  exact hforgotten

theorem asked_configure (params : List Byte) (s : State) : Asked s (requestConfigure params s).2.2 := by
  unfold requestConfigure refuse
  (repeat' split)
  · exact .none s
  · exact .none s
  · next c hc hempty => exact .same (sameQueue_applyConfig c s)

theorem asked_attach (s : State) : Asked s (requestAttach s).2.2 := by
  unfold requestAttach
  dsimp only
  split
  · exact .moved (Moves.before (moves_announceBoundary _ _) rfl rfl)
  · exact .moved (Moves.before (moves_enterSearch _) rfl rfl)

theorem asked_detach (s : State) : Asked s (requestDetach s).2.2 := by
  unfold requestDetach
  (repeat' split)
  · exact .none s
  · exact .moved (moves_completeDetach s)
  · exact .same ⟨rfl, rfl, rfl, rfl, rfl, rfl⟩

theorem asked_cancel (params : List Byte) (s : State) : Asked s (requestCancel params s).2.2 := by
  unfold requestCancel refuse
  split
  · exact .none s
  · next r hr => exact .moved (moves_cancelRecord (findRecord_mem hr).1)

theorem asked_performRequest (kind : RequestKind) (params : List Byte) (s : State) :
    Asked s (performRequest kind params s).2.2 := by
  have hsame (t : State) (htx : t.tx = s.tx) (hevents : t.events = s.events) : Asked s t := .same (sameQueue_of_eq htx hevents)
  cases kind with
  | ident | status | mapRead | peerRead | reset => exact .none s
  | configure => exact asked_configure params s
  | attach => exact asked_attach s
  | detach => exact asked_detach s
  | mapStage =>
    simp only [performRequest, requestMapStage, refuse]
    split <;> exact hsame _ rfl rfl
  | mapCommit =>
    simp only [performRequest, requestMapCommit, commitAtOnce, commitPending, refuse]
    (repeat' split) <;> exact hsame _ rfl rfl
  | mapWithdraw =>
    simp only [performRequest, requestMapWithdraw, dropSwitch, refuse]
    (repeat' split) <;> exact hsame _ (by simp) (by simp)
  | send => exact asked_send params s
  | cancel => exact asked_cancel params s
  | queryTicket =>
    simp only [performRequest, requestQuery, refuse]
    split <;> exact .none s
  | fetchMessage =>
    simp only [performRequest, requestFetchMessage, refuse]
    split <;> exact hsame _ rfl rfl
  | fetchEvent => exact asked_fetchEvent s
  | counters =>
    simp only [performRequest, requestCounters]
    split <;> exact hsame _ rfl rfl

theorem Executed.asked {s t : State} (h : Executed s t) : Asked s t := by
  obtain ⟨kind, params, h₁, cs₁, h₂, cs₂, -, rfl⟩ := h
  cases asked_performRequest kind params (Machine.withHost h₁ cs₁ s) with
  | moved m => exact .moved (Moves.after (Moves.before m rfl rfl) rfl rfl)
  | accepted r a => exact .accepted r { a with }
  | fetched e rest f => exact .fetched e rest { f with }

/-! ## Law 10 -/

/-- Settles O42, law 10: only the start of a slot that the part drives begins to drive a cell. -/
theorem onlyOwnedSlotsAreDriven : Obligations.OnlyOwnedSlotsAreDriven := by
  intro c s t h hdriven hnew
  have hnot (hcell : t.tx.cell = none ∨ t.tx.cell = s.tx.cell) : False := hcell.elim hdriven hnew
  cases (effect_of_exec h).outbound with
  | moved m => exact (hnot m.cell).elim
  | executed he =>
    cases he.asked with
    | moved m => exact (hnot m.cell).elim
    | accepted r a => exact (hnot (.inr a.cell)).elim
    | fetched e rest f => exact (hnot (.inr (by rw [f.tx]))).elim
  | reset hc htx hevents => exact (hnot (.inl (by rw [htx]; rfl))).elim
  | driven slot u hc hu m hdrives ht =>
    subst ht
    refine ⟨slot, hc, fun cell hcell => ?_, ?_⟩
    · rcases transmitInSlot_sent slot u with ⟨c, e⟩ | ⟨q, r, hsent, -⟩
      · rw [e] at hcell
        exact (Option.some.inj hcell) ▸ rfl
      · obtain ⟨c, hc, hslot, -⟩ := hsent.cell
        exact (Option.some.inj (hc.symm.trans hcell)) ▸ hslot
    · have hmay := (drivesSlot_iff slot u).1 hdrives
      unfold mayDrive mayDriveControl ownedBy at hmay ⊢
      simpa using hmay

/-! ## Law 11 -/

theorem endCell_openSets (s : State) : (endCell s).tx.openSets = s.tx.openSets := by
  rcases endCell_cases s with ⟨-, e⟩ | ⟨c, -, -, e⟩ | ⟨c, t, -, -, -, e⟩ | ⟨c, t, r, -, -, -, e⟩
  · rw [e]
  · rw [e]
  · rw [e]
  · rw [e]
    rcases endPass_cases r { s with tx.cell := none } with ⟨-, e⟩ | ⟨-, -, e⟩ | ⟨-, -, -, e⟩ | ⟨-, -, -, e⟩ <;> (rw [e]; rfl)

/-- Boundary work gives no number and takes none back. -/
theorem doWork_openSets (w : Work) (s : State) : (doWork w s).tx.openSets = s.tx.openSets := by
  cases w with
  | lifetime t => rcases expireRecord_cases t s with e | ⟨r, -, -, e⟩ <;> exact congrArg (·.tx.openSets) e
  | ackTimer t => rcases judgeTimer_cases t s with e | ⟨r, -, -, ⟨-, e⟩ | ⟨-, e⟩⟩ <;> exact congrArg (·.tx.openSets) e
  | reassembly n => simp [doWork]
  | mapSwitch => simp [doWork]
  | completion =>
    change (offerEvent (.detached s.tx.records.length) (clearForDetach (flushRecords s))).tx.openSets = _
    rw [offerEvent_eq_offered, offered_cell]
    exact (congrArg Scheduler.openSets (flushed_tx s.tx.records s) :)

theorem settle_openSets (s : State) : (settle s).tx.openSets = s.tx.openSets :=
  settle_keeps (P := fun u => u.tx.openSets = s.tx.openSets) (fun w _ _ _ h => (doWork_openSets w _).trans h) s rfl

theorem openSlot_openSets (slot : Slot) (s : State) : (openSlot slot s).tx.openSets = s.tx.openSets := by
  unfold openSlot
  dsimp only
  (repeat' split) <;> simp [endCell_openSets]

/-- Settles O43, law 11: only a first pass gives a number, and it draws one that its destinations leave closed. -/
theorem drawnNumbersAreClosed : Obligations.DrawnNumbersAreClosed := by
  intro c s t hsound h r hr r' hr' hticket hnone k hk d hd
  have hnew (hfrom : ∃ o ∈ s.tx.records, o.ticket = r'.ticket ∧ o.number = r'.number) : False := by
    obtain ⟨o, ho, hto, hno⟩ := hfrom
    obtain rfl := eq_of_ticket hsound.2.1 ho hr (hto.trans hticket)
    rw [hno, hk] at hnone
    cases hnone
  have hborne (hfrom : numbersFrom s t) : False := hnew (hfrom r' hr' (by simp [hk]))
  cases (effect_of_exec h).outbound with
  | moved m => exact (hborne m.numbers).elim
  | executed he =>
    cases he.asked with
    | moved m => exact (hborne m.numbers).elim
    | accepted q a =>
      rw [a.records] at hr'
      rcases List.mem_append.1 hr' with ho | ho
      · exact (hnew ⟨r', ho, rfl, rfl⟩).elim
      · obtain rfl := List.mem_singleton.1 ho
        rw [a.noNumber] at hk
        cases hk
    | fetched e rest f => exact (hborne (numbersFrom_of_records (by rw [f.tx]))).elim
  | reset hc htx hevents =>
    rw [htx] at hr'
    cases hr'
  | driven slot u hc hu m hdrives ht =>
    subst ht
    have hopen : u.tx.openSets = s.tx.openSets := by rw [hu, openSlot_openSets, settle_openSets]
    rcases transmitInSlot_sent slot u with ⟨c, e⟩ | ⟨q, p, hsent, hnumber⟩
    · exact (hborne (m.numbers.trans (numbersFrom_of_records (by rw [e]; rfl)))).elim
    · rw [hsent.records] at hr'
      obtain ⟨o, ho, e⟩ := List.mem_map.1 hr'
      by_cases hto : o.ticket = p.ticket
      · obtain rfl : p = r' := by rw [← e, if_pos hto]
        rcases hnumber with hn | hclosed
        · exact (hnew (hsent.ticket ▸ hn ▸ m.numbers q hsent.mem (by rw [← hn, hk]; exact nofun))).elim
        · rw [← hopen]
          exact hclosed k hk d hd
      · obtain rfl : o = r' := by rw [← e, if_neg hto]
        exact (hnew (m.numbers o ho (by simp [hk]))).elim

/-! ## Laws 1, 2, 4 to 7 -/

theorem after_ne_zero (t : Ticket) : after t ≠ 0 := by
  unfold after
  split
  · decide
  · next h =>
    intro e
    have hwrapped : (t.toNat + 1) % 65536 = 0 := by simpa using congrArg BitVec.toNat e
    have := t.isLt
    omega

theorem stepsOn_ne_zero {t : Ticket} (ht : t ≠ 0) (k : Nat) : stepsOn t k ≠ 0 := by
  cases k with
  | zero => exact ht
  | succ k => exact after_ne_zero _

/-- R59: with fewer than 32 records the ticket assigned is one that no record holds, and is not 0. -/
theorem assignedTicket_free {s : State} (hnext : s.tx.nextTicket ≠ 0) (hlen : s.tx.records.length < 32) :
    assignedTicket s ≠ 0 ∧ ∀ r ∈ s.tx.records, r.ticket ≠ assignedTicket s := by
  obtain ⟨k, -, -, hfree, e⟩ := assignedTicket_spec hnext hlen
  rw [e]
  exact ⟨stepsOn_ne_zero hnext k, hfree⟩

theorem Accepted.queueAccounts {s t : State} {r : Record} (a : Accepted s t r) (h : queueAccounts s) : queueAccounts t := by
  obtain ⟨⟨hheld, hmax⟩, hothers, ⟨hnd, hzero, hnext⟩, hpool⟩ := h
  have hlen : s.tx.records.length < 32 := by
    have := a.place
    omega
  obtain ⟨hne, hfree⟩ := assignedTicket_free hnext hlen
  refine ⟨⟨?_, ?_⟩, ?_, ⟨?_, ?_, ?_⟩, ?_⟩
  · unfold resultCount at hheld ⊢
    rw [a.events, a.records, List.length_append, List.length_singleton]
    dsimp only
    omega
  · rw [a.events]
    exact a.place
  · unfold nonResultPlaces nonResultEvents at hothers ⊢
    rw [a.events]
    exact hothers
  · rw [a.records, List.map_append]
    refine List.Nodup.append hnd (List.nodup_singleton _) ?_
    rintro x hx hx'
    obtain rfl := List.mem_singleton.1 hx'
    obtain ⟨o, ho, hto⟩ := List.mem_map.1 hx
    exact hfree o ho (hto.trans a.ticket)
  · rw [a.records]
    intro o ho
    rcases List.mem_append.1 ho with ho | ho
    · exact hzero o ho
    · obtain rfl := List.mem_singleton.1 ho
      exact a.ticket ▸ hne
  · rw [a.next, nextTicketAfter_eq_after]
    exact after_ne_zero _
  · unfold outboundBlocks at hpool ⊢
    rw [a.free, a.records, List.map_append, List.sum_append]
    have := a.room
    simp only [List.map_cons, List.map_nil, List.sum_singleton]
    omega

theorem Accepted.passesSound {s t : State} {r : Record} (a : Accepted s t r) (haccounts : Safety.queueAccounts s) (h : passesSound s) :
    passesSound t := by
  have hnd := (a.queueAccounts haccounts).2.2.1.1
  obtain ⟨-, hsound, hapart, hone, hretry, hlast⟩ := h
  refine ⟨hnd, ?_, ?_, ?_, ?_, lastCellSending_iff.2 fun x hx => ?_⟩
  · rw [a.records]
    intro o ho
    rcases List.mem_append.1 ho with ho | ho
    · exact hsound o ho
    · obtain rfl := List.mem_singleton.1 ho
      refine ⟨by simp [a.noPass, a.queued], ?_, fun hna => by simp [a.pending, hna], fun hs => ?_⟩
      · rw [a.pending]
        split <;> simp [without]
      · rw [a.queued] at hs
        rcases hs with e | e <;> cases e
  · rw [a.records]
    refine List.pairwise_append.2 ⟨hapart, List.pairwise_singleton .., fun o _ q hq => ?_⟩
    obtain rfl := List.mem_singleton.1 hq
    exact apart_comm (apart_of_not_inFlight (by simp [Record.inFlight, a.queued]) o)
  · unfold onePass at hone ⊢
    rw [a.records, List.filter_append]
    simpa [a.queued] using hone
  · unfold retryListed at hretry ⊢
    rw [a.records, List.filter_append, a.order]
    simpa [a.queued] using hretry
  · have hx' : passEnding s = some x := by
      unfold passEnding at hx ⊢
      rw [a.cell] at hx
      exact hx
    obtain ⟨o, ho, hto, hso⟩ := lastCellSending_iff.1 hlast x hx'
    exact ⟨o, by rw [a.records]; exact List.mem_append_left _ ho, hto, hso⟩

theorem Fetched.queueAccounts {s t : State} {e : EventRecord} {rest : List EventRecord} (f : Fetched s t e rest)
    (h : queueAccounts s) : queueAccounts t := by
  obtain ⟨⟨hheld, hmax⟩, ⟨hothers, hmax'⟩, htickets, hpool⟩ := h
  unfold resultCount at hheld
  unfold nonResultEvents at hothers
  rw [f.oldest, List.countP_cons] at hheld hothers
  refine ⟨⟨?_, ?_⟩, ⟨?_, ?_⟩, ?_, ?_⟩
  · unfold resultCount
    rw [f.held, f.tx, f.records, hheld]
    omega
  · rw [f.held]
    omega
  · unfold nonResultEvents
    rw [f.others, f.records, hothers]
    cases e.kind.isResult <;> simp
  · rw [f.others]
    omega
  · unfold ticketsDistinct
    rw [f.tx]
    exact htickets
  · unfold outboundBlocks
    rw [f.tx]
    exact hpool

theorem queueAccounts_sent {slot : Slot} {q r : Record} {s t : State} (hsent : Sent slot q r s t) (h : queueAccounts s) :
    queueAccounts t := by
  refine queueAccounts_map h hsent.records (replaced_records_map fun o ho e => ?_) hsent.free hsent.next hsent.events
  rw [eq_of_ticket h.2.2.1.1 ho hsent.mem (e.trans hsent.ticket)]
  exact hsent.payload

theorem outboundSound_transmitInSlot {s : State} (h : outboundSound s) (slot : Slot) : outboundSound (transmitInSlot slot s) := by
  obtain ⟨haccounts, hpasses⟩ := h
  rcases transmitInSlot_sent slot s with ⟨c, e⟩ | ⟨q, r, hsent, -⟩
  · rw [e]
    refine ⟨queueAccounts_congr haccounts rfl rfl rfl rfl, ?_⟩
    obtain ⟨h1, h2, h3, h4, h5, -⟩ := hpasses
    exact ⟨h1, h2, h3, h4, h5, lastCellSending_iff.2 nofun⟩
  · exact ⟨queueAccounts_sent hsent haccounts,
      passesSound_replaced hpasses hsent.mem hsent.ticket hsent.records (hsent.put hpasses)⟩

/-- Settles O56, laws 1, 2, 5, 6 and 7 and the outbound half of law 4. -/
theorem outboundLawsAreKept : Obligations.OutboundLawsAreKept := by
  rintro c s t ⟨haccounts, hpasses⟩ h
  cases (effect_of_exec h).outbound with
  | moved m => exact ⟨m.queueAccounts haccounts, m.passes hpasses⟩
  | executed he =>
    cases he.asked with
    | moved m => exact ⟨m.queueAccounts haccounts, m.passes hpasses⟩
    | accepted r a => exact ⟨a.queueAccounts haccounts, a.passesSound haccounts hpasses⟩
    | fetched e rest f =>
      exact ⟨f.queueAccounts haccounts, passesSound_congr hpasses (by rw [f.tx]) (by rw [f.tx]) (.inr (by rw [f.tx]))⟩
  | reset hc htx hevents =>
    have hreset : outboundSound State.reset := by decide
    exact ⟨queueAccounts_congr hreset.1 (by rw [htx]) (by rw [htx]) (by rw [htx]) hevents,
      passesSound_congr hreset.2 (by rw [htx]) (by rw [htx]) (.inr (by rw [htx]))⟩
  | driven slot u hc hu m hdrives ht =>
    rw [ht]
    exact outboundSound_transmitInSlot ⟨m.queueAccounts haccounts, m.passes hpasses⟩ slot

/-! ## Law 8 -/

/-- Of the records that stay, none is new and none has a result. -/
theorem law8_of_perm {s t : State} {new : List EventRecord} (hnd : (ticketsOf s.tx.records).Nodup)
    (hperm : (ticketsOf s.tx.records).Perm (resultTickets new ++ ticketsOf t.tx.records)) :
    (ticketsOf s.tx.records).Perm
      (resultTickets new ++ ((ticketsOf t.tx.records).filter fun x =>
        s.tx.records.any fun r => r.ticket == x && !(resultTickets new).contains x)) := by
  have hdisjoint := (List.nodup_append.1 (hperm.nodup_iff.1 hnd)).2.2
  rwa [List.filter_eq_self.2 fun x hx => ?_]
  have hmem : x ∈ ticketsOf s.tx.records := hperm.mem_iff.2 (List.mem_append_right _ hx)
  obtain ⟨r, hr, rfl⟩ := List.mem_map.1 hmem
  refine List.any_eq_true.2 ⟨r, hr, ?_⟩
  have hnot : r.ticket ∉ resultTickets new := fun hn => hdisjoint _ hn _ hx rfl
  simpa using hnot

theorem law8_of_resultsAccount {s t : State} (hnd : (ticketsOf s.tx.records).Nodup) (h : resultsAccount s t) :
    ∃ new k, k ≤ 1 ∧ t.events.records = (s.events.records ++ new).drop k
      ∧ (ticketsOf s.tx.records).Perm
          (resultTickets new ++ ((ticketsOf t.tx.records).filter fun x =>
            s.tx.records.any fun r => r.ticket == x && !(resultTickets new).contains x)) := by
  obtain ⟨new, hevents, hperm⟩ := h
  exact ⟨new, 0, by omega, hevents, law8_of_perm hnd hperm⟩

/-- A record that a SEND brings is none of those that were held. -/
theorem Accepted.law8 {s t : State} {r : Record} (a : Accepted s t r) (h : Safety.queueAccounts s) :
    (ticketsOf s.tx.records).Perm
      (resultTickets [] ++ ((ticketsOf t.tx.records).filter fun x =>
        s.tx.records.any fun r => r.ticket == x && !(resultTickets []).contains x)) := by
  have hlen : s.tx.records.length < 32 := by
    have := a.place
    have := h.1.1
    omega
  have hfree := (assignedTicket_free h.2.2.1.2.2 hlen).2
  have hnew : (s.tx.records.any fun o => o.ticket == r.ticket && !(resultTickets []).contains r.ticket) = false :=
    List.any_eq_false.2 fun o ho => by simp [a.ticket, hfree o ho]
  have hkept := law8_of_perm (t := s) (new := []) h.2.2.1.1 (.refl _)
  have happend : ticketsOf t.tx.records = ticketsOf s.tx.records ++ [r.ticket] := by
    rw [a.records]
    simp [ticketsOf]
  rw [happend, List.filter_append, List.filter_singleton, hnew]
  simpa using hkept

/-- Settles O60, law 8: a record leaves the queue exactly by its one result. -/
theorem everyRecordEndsInOneResult : Obligations.EveryRecordEndsInOneResult := by
  intro c s t haccounts h hpin hreset
  have hnd := haccounts.2.2.1.1
  cases (effect_of_exec h).outbound with
  | moved m => exact law8_of_resultsAccount hnd (m.results haccounts)
  | executed he =>
    cases he.asked with
    | moved m => exact law8_of_resultsAccount hnd (m.results haccounts)
    | accepted r a =>
      exact ⟨[], 0, by omega, by rw [a.events]; simp, a.law8 haccounts⟩
    | fetched e rest f =>
      exact ⟨[], 1, le_rfl, by rw [f.oldest, f.records]; simp, law8_of_perm hnd (by rw [f.tx]; exact .refl _)⟩
  | reset hc htx hevents =>
    rcases hc with ⟨straps, hc, hp⟩ | ⟨reply, hs, hr, hc⟩
    · exact absurd hp (hpin straps hc)
    · exact (hc.elim (hreset reply hs hr).1 (hreset reply hs hr).2).elim
  | driven slot u hc hu m hdrives ht =>
    refine law8_of_resultsAccount hnd ((m.results haccounts).trans ?_)
    rw [ht]
    refine resultsAccount_of_tickets ?_ (by simp)
    rcases transmitInSlot_sent slot u with ⟨c, e⟩ | ⟨q, r, hsent, -⟩
    · rw [e]
      rfl
    · rw [hsent.records]
      exact tickets_replaced r u

end Sys2Proof.Machine
end

section
/-! The queue of commands, the resets, the host line, the pins and the general checks of requests. -/
namespace Sys2Proof.Machine

open Sys2Proof.Claims Sys2Proof.Safety

/-! ## The queue of commands -/

/-- Settles O1: a step is the command in front. -/
theorem stepRunsTheFrontCommand : Obligations.StepRunsTheFrontCommand :=
  ⟨fun _ _ _ => rfl, fun s h => by rw [step, h]⟩

/-! ## Resets -/

/-- Settles O5: the reset state is one fixed state. -/
theorem resetValuesMeetTheLaws : Obligations.ResetValuesMeetTheLaws := by
  unfold Obligations.ResetValuesMeetTheLaws
  and_intros
  all_goals decide

/-- Outside normal running a request's characters pass (R165, R170). -/
theorem receiveRequest_of_not_running {s : State} (h : s.phase ≠ .running) (r : HostRequest) : receiveRequest r s = s := if_neg h

/-- Outside normal running what stands for characters on HRX passes (R165, R170). -/
theorem exec_onHrx_of_not_running {c : Instr} {s : State} (hc : onHrx c = true) (h : s.phase ≠ .running) : exec c s = .next s := by
  rcases hr : requestOf c with _ | r
  · cases c with
    | requestReceived frame => exact if_neg h
    | hostFrameError fault => cases fault <;> exact if_neg h
    | gapTimeout => exact if_neg h
    | leadByte value fault => exact if_neg h
    | _ => simp [onHrx, hr] at hc
  · rw [exec_of_requestOf hr, receiveRequest_of_not_running h]

/-- While RSTN is low only its release acts (R165). -/
theorem exec_holdInReset {c : Instr} (hc : ∀ straps, c ≠ .pinResetRelease straps) (s : State) :
    exec c (holdInReset s) = .next (holdInReset s) := by
  by_cases hrx : onHrx c = true
  · exact exec_onHrx_of_not_running hrx nofun
  · cases c with
    | pinResetRelease straps => exact absurd rfl (hc straps)
    | replyTransmissionEnd | resetTakesEffect | pinResetAssert | startupIntervalEnd | masterFrameBoundary | markObserved _ | missedMark
    | clockLoss | slotStart _ | passEnd | cellReceived _ | lifetimeExpiry _ | ackTimerExpiry _ | reassemblyTimeout _ | mapSwitch
    | detachCompletion => rfl
    | _ => exact absurd rfl hrx

/-- Settles O6: the level and the edges of RSTN, and the start-up interval. -/
theorem pinResetAndStartup : Obligations.PinResetAndStartup := by
  refine ⟨fun s => ⟨holdInReset s, rfl, rfl, rfl, rfl, fun _ => rfl, rfl, rfl, rfl, rfl, rfl⟩, fun c s t ht hc => ?_,
    fun straps s hp => ?_, fun c s hc hp => ?_, fun s hp => ?_⟩
  · obtain rfl : holdInReset s = t := Host.Outcome.next.inj ht
    exact exec_holdInReset hc s
  · exact if_pos hp
  · exact exec_onHrx_of_not_running hc (by simp [hp])
  · exact if_pos hp

/-- Settles O7: RESET is answered like any request, and the end of its reply resets the part. -/
theorem resetTakesEffectAtItsReplysEnd : Obligations.ResetTakesEffectAtItsReplysEnd := by
  refine ⟨fun seq s hn => ?_, fun s reply hs hr => ⟨?_, fun hp => ?_⟩⟩
  · have h := exec_taken (k := .reset) (params := []) hn rfl rfl
    obtain ⟨-, -, -, hwaiting, -⟩ := hn
    refine h.trans ?_
    simp only [performRequest, beginReply, answeredWith, hwaiting]
    rfl
  · change execResetTakesEffect s = _
    simp only [execResetTakesEffect, hs, hr, if_true]
    rfl
  · change execReplyTransmissionEnd s = _
    simp only [execReplyTransmissionEnd, endReply, hp, hs, hr, if_true]
    rfl

/-! ## Requests that arrive -/

/-- Settles O9: the three ways a request is not executed at once. -/
theorem requestIsReplayedWaitsOrIsDiscarded : Obligations.RequestIsReplayedWaitsOrIsDiscarded := by
  intro c r s hr hp hf
  rw [exec_of_requestOf hr, receiveRequest_eq_arrive hp hf]
  refine ⟨fun k hs hw hk hseq => ?replayed, fun hs hw => ?waits, fun hw => ?discarded⟩
  case replayed => simp [arrive, takeUp, beginReply, hs, hw, hk, hseq]
  case waits => simp [arrive, hs, hw]
  case discarded => simp [arrive, hw, bump_eq_up]

/-- `s` with another receive state of the Host Port. -/
def withReceive (receive : ReceiveState) (s : State) : State := { s with host.receive := receive }

@[simp] theorem withReceive_frame (receive : ReceiveState) (s : State) :
    (withReceive receive s).phase = s.phase ∧ (withReceive receive s).station = s.station ∧ (withReceive receive s).link = s.link
      ∧ (withReceive receive s).map = s.map ∧ (withReceive receive s).tx = s.tx ∧ (withReceive receive s).rx = s.rx
      ∧ (withReceive receive s).events = s.events ∧ (withReceive receive s).counters = s.counters
      ∧ (withReceive receive s).due = s.due := ⟨rfl, rfl, rfl, rfl, rfl, rfl, rfl, rfl, rfl⟩

theorem offerEvent_withReceive (kind : EventKind) (receive : ReceiveState) (s : State) :
    offerEvent kind (withReceive receive s) = withReceive receive (offerEvent kind s) := by
  unfold offerEvent
  rw [apply_ite (withReceive receive)]
  rfl

theorem flushRecords_withReceive (receive : ReceiveState) (s : State) :
    flushRecords (withReceive receive s) = withReceive receive (flushRecords s) := by
  have hplaced (records : List Record) (u : State) :
      records.foldl (fun t r => pushEvent (r.result .flushed) t) (withReceive receive u)
        = withReceive receive (records.foldl (fun t r => pushEvent (r.result .flushed) t) u) := by
    induction records generalizing u with
    | nil => rfl
    | cons r records ih => exact ih (pushEvent (r.result .flushed) u)
  unfold flushRecords
  dsimp only
  rw [show (withReceive receive s).tx = s.tx from rfl, hplaced]
  rfl

theorem completeDetach_withReceive (receive : ReceiveState) (s : State) :
    completeDetach (withReceive receive s) = withReceive receive (completeDetach s) := by
  have hcleared : clearForDetach (flushRecords (withReceive receive s)) = withReceive receive (clearForDetach (flushRecords s)) := by
    rw [flushRecords_withReceive]
    rfl
  unfold completeDetach
  dsimp only
  rw [hcleared, offerEvent_withReceive]
  rfl

theorem closeMapWork_withReceive (receive : ReceiveState) (s : State) :
    closeMapWork (withReceive receive s) = withReceive receive (closeMapWork s) := by
  unfold closeMapWork
  dsimp only
  rw [apply_ite (withReceive receive)]
  rfl

theorem announceBoundary_withReceive (begins : Bool) (receive : ReceiveState) (s : State) :
    announceBoundary begins (withReceive receive s) = withReceive receive (announceBoundary begins s) := by
  unfold announceBoundary
  dsimp only
  rw [apply_ite (withReceive receive), ← closeMapWork_withReceive]
  rfl

theorem startDriving_withReceive (receive : ReceiveState) (s : State) :
    startDriving (withReceive receive s) = withReceive receive (startDriving s) := by
  unfold startDriving
  rw [← announceBoundary_withReceive]
  rfl

/-- An answer with another receive state of the Host Port beside it. -/
def Answer.withReceive (receive : ReceiveState) (a : Answer) : Answer := (a.1, a.2.1, Machine.withReceive receive a.2.2)

theorem requestAttach_withReceive (receive : ReceiveState) (s : State) :
    requestAttach (withReceive receive s) = (requestAttach s).withReceive receive := by
  unfold requestAttach
  simp only [withReceive_frame]
  cases s.station.config.role with
  | master =>
    exact congrArg (fun u => (Status.ok, [], u))
      (startDriving_withReceive receive { s with station.state := .attached, map.outcome := .nothing })
  | member => rfl

theorem requestDetach_withReceive (receive : ReceiveState) (s : State) :
    requestDetach (withReceive receive s) = (requestDetach s).withReceive receive := by
  unfold requestDetach
  rw [apply_ite (Answer.withReceive receive), apply_ite (Answer.withReceive receive), completeDetach_withReceive]
  rfl

theorem requestConfigure_withReceive (params : List Byte) (receive : ReceiveState) (s : State) :
    requestConfigure params (withReceive receive s) = (requestConfigure params s).withReceive receive := by
  unfold requestConfigure
  cases configOperand params with
  | none => rfl
  | some c =>
    dsimp only
    rw [apply_ite (Answer.withReceive receive), withReceive, applyConfig_receive]
    rfl

theorem requestMapCommit_withReceive (params : List Byte) (receive : ReceiveState) (s : State) :
    requestMapCommit params (withReceive receive s) = (requestMapCommit params s).withReceive receive := by
  unfold requestMapCommit commitPending
  dsimp only
  rw [apply_ite (Answer.withReceive receive), apply_ite (Answer.withReceive receive), apply_ite (Answer.withReceive receive)]
  rfl

theorem requestMapWithdraw_withReceive (receive : ReceiveState) (s : State) :
    requestMapWithdraw (withReceive receive s) = (requestMapWithdraw s).withReceive receive := by
  have hdropped (u : State) : dropSwitch (withReceive receive u) = withReceive receive (dropSwitch u) := by
    unfold dropSwitch
    rw [apply_ite (withReceive receive), ← closeMapWork_withReceive]
    rfl
  unfold requestMapWithdraw
  rw [apply_ite (Answer.withReceive receive), apply_ite (Answer.withReceive receive)]
  unfold Answer.withReceive
  dsimp only
  rw [← hdropped]
  rfl

theorem requestCancel_withReceive (params : List Byte) (receive : ReceiveState) (s : State) :
    requestCancel params (withReceive receive s) = (requestCancel params s).withReceive receive := by
  unfold requestCancel cancelRecord
  rw [show findRecord (ticketOperand params) (withReceive receive s) = findRecord (ticketOperand params) s from rfl]
  cases findRecord (ticketOperand params) s with
  | none => rfl
  | some r =>
    by_cases hs : r.state = .sending
    · simp only [if_pos hs]
      rfl
    · simp only [if_neg hs]
      rfl

/-- No request's rule reads or writes the receive state of the Host Port. -/
theorem performRequest_withReceive (kind : RequestKind) (params : List Byte) (receive : ReceiveState) (s : State) :
    performRequest kind params (withReceive receive s) = (performRequest kind params s).withReceive receive := by
  cases kind with
  | ident | status | mapRead | peerRead | reset => rfl
  | configure => exact requestConfigure_withReceive params receive s
  | attach => exact requestAttach_withReceive receive s
  | detach => exact requestDetach_withReceive receive s
  | mapStage =>
    simp only [performRequest, requestMapStage]
    rw [apply_ite (Answer.withReceive receive)]
    rfl
  | mapCommit => exact requestMapCommit_withReceive params receive s
  | mapWithdraw => exact requestMapWithdraw_withReceive receive s
  | send => exact requestSend_receive params receive s
  | cancel => exact requestCancel_withReceive params receive s
  | queryTicket =>
    simp only [performRequest, requestQuery]
    rw [show findRecord (ticketOperand params) (withReceive receive s) = findRecord (ticketOperand params) s from rfl]
    cases findRecord (ticketOperand params) s <;> rfl
  | fetchMessage =>
    simp only [performRequest, requestFetchMessage, withReceive_frame]
    cases s.rx.mailbox <;> rfl
  | fetchEvent =>
    simp only [performRequest, requestFetchEvent, withReceive_frame]
    cases s.events.records with
    | nil => rfl
    | cons e rest => cases he : e.kind.isResult <;> simp only [he] <;> rfl
  | counters =>
    simp only [performRequest, requestCounters]
    cases (param params 0).getLsbD 0 <;> rfl

/-- Nor does the judgement of a request (R140). -/
theorem judgeRequest_withReceive (r : HostRequest) (receive : ReceiveState) (s : State) :
    judgeRequest r (withReceive receive s) = (judgeRequest r s).withReceive receive := by
  unfold judgeRequest
  cases requestKind? r.kind with
  | none => rfl
  | some kind =>
    dsimp only
    rw [show stateCheck kind (withReceive receive s) = stateCheck kind s from rfl]
    cases lengthSuits kind (r.params.length + 2) with
    | false => rfl
    | true =>
      cases stateCheck kind s with
      | some status => rfl
      | none => exact performRequest_withReceive kind r.params receive s

/-- What a request taken up comes to does not depend on the receive state, which stays. -/
theorem takeUp_withReceive (r : HostRequest) (receive : ReceiveState) (s : State) :
    takeUp r (withReceive receive s) = withReceive receive (takeUp r s) := by
  have hexecuted : executeRequest r (withReceive receive s) = withReceive receive (executeRequest r s) := by
    unfold executeRequest
    rw [judgeRequest_withReceive]
    rfl
  unfold takeUp
  rw [show (withReceive receive s).host.kept = s.host.kept from rfl]
  cases s.host.kept with
  | none => exact hexecuted
  | some k =>
    dsimp only
    rw [apply_ite (withReceive receive), hexecuted]
    rfl

/-- Settles O10: the waiting request is taken up as one that arrives now. -/
theorem replyEndTakesUpTheWaitingRequest : Obligations.ReplyEndTakesUpTheWaitingRequest := by
  intro s reply hp hs hr
  have hend : exec .replyTransmissionEnd s = .next (endReply s) := if_pos hp
  refine ⟨fun hw => ?_, fun w hw => ?_⟩
  · rw [hend]
    simp [endReply, hs, hr, hw]
  · let u : State := { s with host := { s.host with sending := none, waiting := none } }
    refine ⟨takeUp w (withReceive .idle u), ?_, ?_⟩
    · rw [exec_of_requestOf (r := w) rfl]
      exact congrArg _ (receiveRequest_eq_arrive (s := withReceive (.inFrame []) u) hp rfl)
    · rw [hend, takeUp_withReceive]
      have hended : endReply s = takeUp w u := by simp [endReply, hs, hr, hw, u]
      have hkept : takeUp w u = withReceive s.host.receive (takeUp w u) := takeUp_withReceive w s.host.receive u
      rw [hended, hkept]
      rfl

/-! ## Characters -/

theorem takeCharacter_collecting {s : State} {taken : List Byte} {value : Byte} (h : s.host.receive = .inFrame taken)
    (hj : judgeFrame (taken ++ [value]) = .collecting) : takeCharacter s value = inFrame (taken ++ [value]) s := by
  simp [takeCharacter, h, hj, inFrame]

theorem takeCharacter_error {s : State} {taken : List Byte} {value : Byte} {fault : FrameFault} (h : s.host.receive = .inFrame taken)
    (hj : judgeFrame (taken ++ [value]) = .error fault) : takeCharacter s value = inError s := by
  simp [takeCharacter, h, hj, frameError, inError, bump_eq_up]

theorem takeCharacter_complete {s : State} {taken : List Byte} {value : Byte} {r : HostRequest} (h : s.host.receive = .inFrame taken)
    (hj : judgeFrame (taken ++ [value]) = .complete r) : takeCharacter s value = completeFrame r s := by
  simp [takeCharacter, h, hj]

/-- Short of the second CRC byte the characters of a frame are taken (R132). -/
theorem takeCharacters_collecting {s : State} (h : s.host.receive = .inFrame []) {l : Byte} (body : List Byte) (h2 : 2 ≤ l.toNat)
    (h250 : l.toNat ≤ 250) (hlen : body.length < l.toNat + 2) : takeCharacters (l :: body) s = inFrame (l :: body) s := by
  induction body using List.reverseRecOn with
  | nil => exact takeCharacter_collecting h (judgeFrame_collecting h2 h250 hlen)
  | append_singleton taken value ih =>
    rw [List.length_append, List.length_singleton] at hlen
    have hjudged := judgeFrame_collecting (rest := taken ++ [value]) h2 h250 (by simpa using hlen)
    change takeCharacters ((l :: taken) ++ [value]) s = _
    rw [takeCharacters_append, ih (by omega)]
    exact takeCharacter_collecting (s := inFrame (l :: taken) s) rfl hjudged

/-- With the second CRC byte a frame has come to its judgement (R132). -/
theorem takeCharacters_whole {s : State} (h : s.host.receive = .inFrame []) {l : Byte} (body : List Byte) (hi lo : Byte)
    (h2 : 2 ≤ l.toNat) (h250 : l.toNat ≤ 250) (hlen : body.length = l.toNat) :
    takeCharacters (l :: body ++ [hi, lo]) s = takeCharacter (inFrame (l :: body ++ [hi]) s) lo := by
  have htaken := takeCharacters_collecting h (body ++ [hi]) h2 h250 (by simp [hlen])
  rw [show l :: body ++ [hi, lo] = (l :: (body ++ [hi])) ++ [lo] by simp, takeCharacters_append, htaken]
  rfl

theorem takeCharacters_mismatch {s : State} (h : s.host.receive = .inFrame []) {l : Byte} {body : List Byte} {hi lo : Byte}
    (h2 : 2 ≤ l.toNat) (h250 : l.toNat ≤ 250) (hlen : body.length = l.toNat) (hcrc : crc16 (l :: body) ≠ hi ++ lo) :
    takeCharacters (l :: body ++ [hi, lo]) s = inError s := by
  have hjudged := judgeFrame_whole hi lo h2 h250 hlen
  rw [if_pos hcrc] at hjudged
  rw [takeCharacters_whole h body hi lo h2 h250 hlen,
    takeCharacter_error (s := inFrame (l :: body ++ [hi]) s) (taken := l :: body ++ [hi]) (fault := .crcMismatch) rfl
      (by simpa using hjudged)]
  rfl

theorem takeCharacters_phase (values : List Byte) (s : State) : (takeCharacters values s).phase = s.phase := by
  refine takeCharacters_keeps (P := fun u => u.phase = s.phase) (fun _ _ h => h) (fun _ h => h) (fun r u h => ?_) values s rfl
  rcases arrive_cases r { u with host.receive := .idle } with ⟨-, e⟩ | ⟨-, -, e⟩ | ⟨-, -, e⟩
  · rw [e]
    exact h
  · rw [e]
    exact h
  · rw [e]
    obtain ⟨-, ⟨h', cs, e⟩ | ⟨kind, params, h₁, cs₁, h₂, cs₂, -, e⟩⟩ := takeUp_cases r { u with host.receive := .idle } <;> rw [e]
    · exact h
    · exact (performRequest_frame kind params _).1.trans h

/-- Settles O11: what HRX brings, character by character. -/
theorem hostLineReception : Obligations.HostLineReception := by
  intro s hp
  have hreceived (values : List Byte) : exec (.requestReceived values) s = .next (takeCharacters values s) := if_pos hp
  have hlead (value : Byte) (fault : Bool) : exec (.leadByte value fault) s = .next (receiveCharacter value fault s) := if_pos hp
  have hfault (fault : FrameFault) : exec (.hostFrameError fault) s = .next (errorInFrame s) := by cases fault <;> exact if_pos hp
  have hgap : exec .gapTimeout s = .next (errorInFrame s) := if_pos hp
  refine ⟨fun hidle => ?idle, fun taken hin => ?inFrame, fun hopen => ?opened, fun a b t ht => ?following⟩
  case idle =>
    refine ⟨?_, fun value fault hne => ?_, fun fault => ?_, ?_, fun tail htail => ?_, fun c r hr htail => ?_⟩
    · rw [hlead]
      simp [receiveCharacter, takeCharacter, hidle, inFrame]
    · rw [hlead]
      cases fault with
      | false =>
        have hother : value ≠ 0xC3 := hne.resolve_right nofun
        exact congrArg _ (takeCharacters_idle (values := [value]) hidle fun hm => hother (List.mem_singleton.1 hm).symm)
      | true => rw [receiveCharacter, if_pos rfl, errorInFrame_idle hidle]
    · rw [hfault, errorInFrame_idle hidle]
    · rw [hgap, errorInFrame_idle hidle]
    · rw [hreceived, takeCharacters_idle hidle htail]
    · rw [exec_of_requestOf hr]
      simp [receiveRequest, hp, hidle, takeCharacters_idle hidle htail]
  case inFrame =>
    refine ⟨fun fault => ?_, ?_, fun value => ?_, fun value => ?_⟩
    · rw [hfault, errorInFrame_inFrame hin]
    · rw [hgap, errorInFrame_inFrame hin]
    · rw [hlead, receiveCharacter, if_pos rfl, errorInFrame_inFrame hin]
    · rw [hlead, hreceived]
      rfl
  case opened =>
    refine ⟨fun l hl => ?_, fun l body h2 h250 hlen => ?_, fun l body hi lo h2 h250 hlen hcrc => ?_⟩
    · rw [hreceived]
      exact congrArg _ (takeCharacter_error hopen (judgeFrame_badLength [] hl))
    · rw [hreceived, takeCharacters_collecting hopen body h2 h250 hlen]
    · rw [hreceived, takeCharacters_mismatch hopen h2 h250 hlen hcrc]
  case following =>
    rw [hreceived] at ht
    obtain rfl := Host.Outcome.next.inj ht
    rw [hreceived, takeCharacters_append]
    exact (if_pos ((takeCharacters_phase a s).trans hp)).symm

/-! ## Frames -/

theorem statusCode_eq (status : Status) : status.code = statusByte status := by cases status <;> rfl

theorem replyFlags_eq (r : SentReply) : replyFlags r = BitVec.ofNat 8 (bit r.replay 0 + bit r.overrun 1) := by
  unfold replyFlags
  cases r.replay <;> cases r.overrun <;> rfl

/-- Settles O12: the characters of a reply, and the reply of an executed request. -/
theorem repliesAreFramed : Obligations.RepliesAreFramed := by
  refine ⟨fun r _ => ⟨hiByte (crc16 _), loByte (crc16 _), halfOf_hiByte_loByte _, ?_⟩, fun c r s t hr hn h => ?_⟩
  · rw [replyFrame, statusCode_eq, replyFlags_eq, byteOf, Nat.add_comm]
    rfl
  · rw [exec_of_executesNow hr hn] at h
    obtain rfl := Host.Outcome.next.inj h
    refine ⟨_, rfl, rfl, rfl, rfl, rfl, ?_, rfl⟩
    change (judgeRequest r { s with host.receive := .idle }).2.2.host.overrun = s.host.overrun
    rcases judgeRequest_cases r { s with host.receive := .idle } with ⟨status, e⟩ | ⟨kind, -, -, -, e⟩ <;> rw [e]
    · rfl
    · rw [(performRequest_frame kind r.params _).2.1]

end Sys2Proof.Machine
end

section
/-! Requests as frames and as commands, the general checks, and the pins. -/
namespace Sys2Proof.Machine

open Sys2Proof.Claims Sys2Proof.Safety

/-! ## Requests answered -/

/-- A request other than RESET that passes the general checks is answered as the rule of its kind answers it (R140). -/
theorem exec_answered {k : RequestKind} {seq : Byte} {params : List Byte} {s : State} (hk : k ≠ .reset) (hn : executesNow seq s)
    (hl : lengthFits k (params.length + 2)) (ht : turnedAway k s.station.state s.station.config.role = none) {status : Status}
    {data : List Byte} {u : State} (hp : performRequest k params s = (status, data, u)) :
    exec (command k seq params) s = .next (answered (k.code + 0x80) seq status data u) := by
  refine exec_performed hk hn hl ht ?_ ?_
  · exact (performRequest_withReceive k params .idle s).trans (by rw [hp]; rfl)
  · have := (performRequest_frame k params s).2.1
    rwa [hp] at this

theorem requestKind?_eq_none {code : Byte} (h : ∀ k : RequestKind, k.code ≠ code) : requestKind? code = none :=
  List.find?_eq_none.2 fun k _ => by simpa using h k

/-- Settles O14: the first three checks of R140. -/
theorem generalChecksAnswerInOrder : Obligations.GeneralChecksAnswerInOrder := by
  intro seq params s hn
  refine ⟨fun kind hkind => ?unknown, fun k hl => ?length, fun k status hl ht => ?turnedAway⟩
  case unknown =>
    refine exec_judged (c := .unknownKindRequest kind seq params) rfl hn ?_ rfl (.inr nofun)
    simp [judgeRequest, requestKind?_eq_none hkind, refuse]
  case length =>
    refine exec_judged (requestOf_command k seq params) hn ?_ rfl (.inr nofun)
    have hunfit : lengthSuits k (params.length + 2) = false := by
      rw [← Bool.not_eq_true, lengthSuits_iff]
      exact hl
    simp [judgeRequest, requestKind?_code, hunfit, refuse]
  case turnedAway =>
    refine exec_turnedAway hn hl ht ?_
    rintro rfl
    revert ht
    cases k <;> cases s.station.state <;> cases s.station.config.role <;> decide

/-- What the rule of a kind answers where it refuses: no data but for FETCH_EVENT's EMPTY, and nothing changed (R140). -/
abbrev refusesCleanly (kind : RequestKind) (a : Answer) (s : State) : Prop :=
  (a.1 ≠ .ok → a.2.1 = [] ∨ (kind = .fetchEvent ∧ a.1 = .empty ∧ a.2.1 = [s.events.pendingLost]))
    ∧ (a.1 ≠ .ok → a.1 ≠ .cancelPending → a.1 ≠ .detachPending → a.2.2 = s)

theorem refusesCleanly_refuse (kind : RequestKind) (status : Status) (s : State) : refusesCleanly kind (refuse status s) s :=
  ⟨fun _ => .inl rfl, fun _ _ _ => rfl⟩

theorem refusesCleanly_ok (kind : RequestKind) (data : List Byte) (s t : State) : refusesCleanly kind (.ok, data, t) s :=
  ⟨fun h => absurd rfl h, fun h => absurd rfl h⟩

theorem performRequest_refuses (kind : RequestKind) (params : List Byte) (s : State) :
    refusesCleanly kind (performRequest kind params s) s := by
  cases kind with
  | ident | status | mapRead | peerRead | reset | counters => exact refusesCleanly_ok _ _ _ _
  | configure =>
    simp only [performRequest, requestConfigure]
    (repeat' split)
    · exact refusesCleanly_refuse ..
    · exact refusesCleanly_refuse ..
    · exact refusesCleanly_ok ..
  | attach =>
    simp only [performRequest, requestAttach]
    split <;> exact refusesCleanly_ok ..
  | detach =>
    simp only [performRequest, requestDetach]
    (repeat' split)
    · exact ⟨fun _ => .inl rfl, fun _ _ h => absurd rfl h⟩
    · exact refusesCleanly_ok ..
    · exact ⟨fun _ => .inl rfl, fun _ _ h => absurd rfl h⟩
  | mapStage =>
    simp only [performRequest, requestMapStage]
    split
    · exact refusesCleanly_refuse ..
    · exact refusesCleanly_ok ..
  | mapCommit =>
    simp only [performRequest, requestMapCommit, commitAtOnce, commitPending]
    (repeat' split)
    · exact refusesCleanly_refuse ..
    · exact refusesCleanly_ok ..
    · exact refusesCleanly_refuse ..
    · exact refusesCleanly_ok ..
  | mapWithdraw =>
    simp only [performRequest, requestMapWithdraw]
    (repeat' split)
    · exact refusesCleanly_ok ..
    · exact refusesCleanly_refuse ..
    · exact refusesCleanly_refuse ..
  | send =>
    simp only [performRequest, requestSend, acceptSend]
    (repeat' split)
    · exact refusesCleanly_refuse ..
    · exact refusesCleanly_refuse ..
    · exact refusesCleanly_refuse ..
    · exact refusesCleanly_refuse ..
    · exact refusesCleanly_refuse ..
    · exact refusesCleanly_ok ..
  | cancel =>
    simp only [performRequest, requestCancel, cancelRecord]
    (repeat' split)
    · exact refusesCleanly_refuse ..
    · exact ⟨fun _ => .inl rfl, fun _ h => absurd rfl h⟩
    · exact refusesCleanly_ok ..
  | queryTicket =>
    simp only [performRequest, requestQuery]
    split
    · exact refusesCleanly_refuse ..
    · exact refusesCleanly_ok ..
  | fetchMessage =>
    simp only [performRequest, requestFetchMessage]
    split
    · exact refusesCleanly_refuse ..
    · exact refusesCleanly_ok ..
  | fetchEvent =>
    simp only [performRequest, requestFetchEvent]
    split
    · exact ⟨fun _ => .inr ⟨rfl, rfl, rfl⟩, fun _ _ _ => rfl⟩
    · exact refusesCleanly_ok ..

/-- Settles O15: a refusal at any step of R140 changes nothing but the Host Port. -/
theorem refusedRequestsChangeNothing : Obligations.RefusedRequestsChangeNothing := by
  intro c r s t hr hn h
  rw [exec_of_executesNow hr hn] at h
  obtain rfl := Host.Outcome.next.inj h
  have hclean : (judgeRequest r (withReceive .idle s)).1 ≠ .ok →
      ((judgeRequest r (withReceive .idle s)).2.1 = []
        ∨ (r.kind = 0x31 ∧ (judgeRequest r (withReceive .idle s)).1 = .empty
          ∧ (judgeRequest r (withReceive .idle s)).2.1 = [s.events.pendingLost]))
      ∧ ((judgeRequest r (withReceive .idle s)).1 ≠ .cancelPending → (judgeRequest r (withReceive .idle s)).1 ≠ .detachPending →
          (judgeRequest r (withReceive .idle s)).2.2 = withReceive .idle s) := by
    intro hstatus
    rcases judgeRequest_cases r (withReceive .idle s) with ⟨status, e⟩ | ⟨kind, hkind, -, -, e⟩
    · rw [e]
      exact ⟨.inl rfl, fun _ _ => rfl⟩
    · obtain ⟨hdata, hstate⟩ := performRequest_refuses kind r.params (withReceive .idle s)
      rw [e] at hstatus ⊢
      refine ⟨(hdata hstatus).imp_right ?_, hstate hstatus⟩
      rintro ⟨rfl, hempty, hlost⟩
      have hcode : RequestKind.fetchEvent.code = r.kind := by simpa using List.find?_some hkind
      exact ⟨hcode.symm, hempty, hlost⟩
  refine ⟨_, rfl, rfl, rfl, fun hstatus => (hclean hstatus).1, fun hstatus hcancel hdetach => ?_⟩
  have hsame := (hclean hstatus).2 hcancel hdetach
  change { (judgeRequest r (withReceive .idle s)).2.2 with host := s.host } = s
  rw [hsame]
  rfl

/-! ## Request frames -/

theorem judgeFrame_requestFrame {r : HostRequest} (h : r.params.length ≤ 248) : judgeFrame (requestFrame r) = .complete r := by
  have hl : (byteOf (r.params.length + 2)).toNat = r.params.length + 2 := by
    rw [byteOf, BitVec.toNat_ofNat, Nat.mod_eq_of_lt (by omega)]
  have hjudged := judgeFrame_whole (l := byteOf (r.params.length + 2)) (body := r.kind :: r.seq :: r.params)
    (hiByte (crc16 (byteOf (r.params.length + 2) :: r.kind :: r.seq :: r.params)))
    (loByte (crc16 (byteOf (r.params.length + 2) :: r.kind :: r.seq :: r.params))) (by omega) (by omega) (by simp [hl])
  exact hjudged.trans (if_neg (not_not_intro (halfOf_hiByte_loByte _).symm))

/-- Behind its lead byte the characters of a request's frame complete the request, wherever the part is (R132). -/
theorem exec_requestFrame {r : HostRequest} (h : r.params.length ≤ 248) (s : State) :
    exec (.requestReceived (requestFrame r)) s = .next (receiveRequest r s) := by
  by_cases hp : s.phase = .running
  · rw [show exec (.requestReceived (requestFrame r)) s = .next (takeCharacters (requestFrame r) s) from if_pos hp]
    by_cases hf : s.host.receive = .inFrame []
    · have hl : (byteOf (r.params.length + 2)).toNat = r.params.length + 2 := by
        rw [byteOf, BitVec.toNat_ofNat, Nat.mod_eq_of_lt (by omega)]
      have hwhole := takeCharacters_whole hf (l := byteOf (r.params.length + 2)) (r.kind :: r.seq :: r.params)
        (hiByte (crc16 (byteOf (r.params.length + 2) :: r.kind :: r.seq :: r.params)))
        (loByte (crc16 (byteOf (r.params.length + 2) :: r.kind :: r.seq :: r.params))) (by omega) (by omega) (by simp [hl])
      have hcomplete := judgeFrame_requestFrame h
      rw [receiveRequest, if_pos hp, if_pos hf]
      refine congrArg _ (hwhole.trans ?_)
      refine takeCharacter_complete rfl (Eq.trans ?_ hcomplete)
      simp [requestFrame, withCrc, halfBytes]
    · rw [receiveRequest, if_pos hp, if_neg hf]
  · rw [receiveRequest_of_not_running hp]
    exact if_neg hp

/-- Settles O8: a request's frame is read back as its request. -/
theorem requestFramesAreReadBack : Obligations.RequestFramesAreReadBack := by
  refine ⟨fun r h => ⟨judgeFrame_requestFrame h, fun s => ?_⟩, fun kind seq params s h => ?_, fun seq s hn => ?_⟩
  · rw [exec_requestFrame h, exec_of_requestOf (r := r) rfl]
  · rw [exec_requestFrame h, exec_command]
  · rw [exec_requestFrame (by simp), ← exec_of_requestOf (c := .ident seq []) rfl, exec_ident hn]

/-! ## Pins -/

theorem lckDivisor_eq (rate : BitVec 2) : lckDivisor rate = [16, 8, 4, 2].getD rate.toNat 0 := by
  revert rate
  decide

theorem baudRate_eq (rate : BitVec 2) : baudRate rate = [57600, 115200, 230400, 460800].getD rate.toNat 0 := by
  revert rate
  decide

/-- LDAT is low for the 0 bits of the cell, byte by byte from bit 7 down (R2, R3). -/
theorem ldatPulledLow_of_cell {s : State} {cell : SentCell} (hcell : s.tx.cell = some cell) (hlen : cell.image.length = 30)
    (byte : Fin 30) (k : Fin 8) :
    ldatPulledLow s (8 * byte.val + k.val) = !(cell.image.getD byte.val 0).getLsbD (7 - k.val) := by
  have hbyte : byte.val < cell.image.length := by omega
  have hdiv : (8 * byte.val + k.val) / 8 = byte.val := by omega
  have hmod : (8 * byte.val + k.val) % 8 = k.val := by omega
  have hin : 8 * byte.val + k.val < Config.cellBits := by
    unfold Config.cellBits
    omega
  have hread : imageByte cell.image byte.val = cell.image.getD byte.val 0 := by
    rw [imageByte, List.getD_eq_getElem _ _ hbyte, List.getD_eq_getElem _ _ hbyte]
  simp only [ldatPulledLow, hcell, cellBitAt, if_pos hin, hdiv, hmod, hread]
  cases (cell.image.getD byte.val 0).getLsbD (7 - k.val) <;> rfl

theorem characterBits_length (b : Byte) : (characterBits b).length = 10 := rfl

/-- The bits of the characters of a frame stand ten by ten (R128). -/
theorem getD_characters {frame : List Byte} {i : Nat} {b : Byte} (h : frame[i]? = some b) {j : Nat} (hj : j < 10) :
    (frame.flatMap characterBits).getD (10 * i + j) true = (characterBits b).getD j true := by
  induction frame generalizing i with
  | nil => cases h
  | cons c frame ih =>
    rw [List.flatMap_cons]
    cases i with
    | zero =>
      obtain rfl : c = b := Option.some.inj h
      rw [Nat.mul_zero, Nat.zero_add, List.getD_append _ _ _ _ (by rwa [characterBits_length])]
    | succ i =>
      rw [List.getD_append_right _ _ _ _ (by rw [characterBits_length]; omega), characterBits_length,
        show 10 * (i + 1) + j - 10 = 10 * i + j by omega]
      exact ih h

theorem flatMap_characterBits_length (frame : List Byte) : (frame.flatMap characterBits).length = 10 * frame.length := by
  induction frame with
  | nil => rfl
  | cons b frame ih =>
    rw [List.flatMap_cons, List.length_append, ih, characterBits_length, List.length_cons]
    omega

theorem flagBit_getLsbD (b : Bool) {k i : Nat} (hi : i < 8) : (flagBit b k).getLsbD i = (b && decide (i = k)) := by
  cases b with
  | false => simp [flagBit]
  | true =>
    simp only [flagBit, if_true, BitVec.getLsbD_shiftLeft, BitVec.getLsbD_one, hi]
    rw [Bool.eq_iff_iff]
    simp
    omega

/-- A character is read as it is sent, whatever its stop bit (R128). -/
theorem readCharacter_sent (b : Byte) (stop : Bool) : readCharacter ((characterBits b).dropLast ++ [stop]) = (b, !stop) := by
  refine Prod.ext (BitVec.eq_of_getLsbD_eq fun i hi => ?_) rfl
  change (((((((((0 : Byte) ||| flagBit (b.getLsbD 0) 0) ||| flagBit (b.getLsbD 1) 1) ||| flagBit (b.getLsbD 2) 2)
    ||| flagBit (b.getLsbD 3) 3) ||| flagBit (b.getLsbD 4) 4) ||| flagBit (b.getLsbD 5) 5) ||| flagBit (b.getLsbD 6) 6)
    ||| flagBit (b.getLsbD 7) 7).getLsbD i = b.getLsbD i
  simp only [BitVec.getLsbD_or, flagBit_getLsbD _ hi]
  interval_cases i <;> simp

/-- Settles O13: the pins as the state gives them. -/
theorem pinsFollowTheState : Obligations.PinsFollowTheState := by
  intro s
  refine ⟨?attn, fun hl => ?released, fun hl => ?driven, fun hc bitTime => ?noCell, fun cell hc hlen => ?cell,
    fun hs bitTime => ?quiet, fun r hs => ?reply, baudRate_eq _, fun b => ⟨readCharacter_sent b true, readCharacter_sent b false⟩⟩
  case attn => simp [attnActive]
  case released => exact ⟨if_neg hl, fun _ => if_neg hl⟩
  case driven => exact ⟨by rw [lckDriven, if_pos hl, lckDivisor_eq], fun position => if_pos hl⟩
  case noCell => rw [ldatPulledLow, hc]
  case cell =>
    refine ⟨ldatPulledLow_of_cell hc hlen, fun bitTime hguard => ?_⟩
    have hout : ¬bitTime < Config.cellBits := by
      unfold Config.cellBits
      omega
    simp [ldatPulledLow, hc, cellBitAt, hout]
  case quiet => rw [htxHigh, hs]
  case reply =>
    have hline (bitTime : Nat) : htxHigh s bitTime = ((replyFrame r).flatMap characterBits).getD bitTime true := by
      rw [htxHigh, hs]
    refine ⟨fun i b hb => ⟨?_, fun k => ?_, ?_⟩, fun bitTime hafter => ?_⟩
    · rw [hline]
      exact getD_characters hb (j := 0) (by omega)
    · rw [hline, Nat.add_assoc, getD_characters hb (by omega)]
      fin_cases k <;> rfl
    · rw [hline, getD_characters hb (by omega)]
      rfl
    · rw [hline, List.getD_eq_default _ _ (by rwa [flatMap_characterBits_length])]

end Sys2Proof.Machine
end

section
/-! The layout of cells and of control payloads, and the CRC, as chapter 2 tabulates them. -/
namespace Sys2Proof.Machine

open Sys2Proof.Claims Sys2Proof.Safety

/-! ## The CRC bit by bit -/

/-- One bit through the register, as a number (R23). -/
theorem crcBit_toNat (register : Half) (taken : Bool) : (crcBit register taken).toNat = crcStep register.toNat taken := by
  have htop : register.getLsbD 15 = decide (32768 ≤ register.toNat) := by
    rw [BitVec.getLsbD, Nat.testBit_eq_decide_div_mod_eq]
    have := register.isLt
    rw [decide_eq_decide]
    omega
  have hshift : (register <<< 1).toNat = 2 * register.toNat % 65536 := by
    rw [BitVec.toNat_shiftLeft, Nat.shiftLeft_eq, Nat.pow_one, Nat.mul_comm]
  unfold crcBit crcStep
  rw [htop]
  by_cases h : decide (32768 ≤ register.toNat) = taken
  · rw [if_pos h, if_neg (by simpa using h), hshift]
  · rw [if_neg h, if_pos (by simpa using h), BitVec.toNat_xor, hshift]
    rfl

/-- The register runs over the bits of the bytes, bit 7 of each first (R23). -/
theorem crc16_toNat (bytes : List Byte) : (crc16 bytes).toNat = crcOf bytes := by
  have hbits (bits : List Bool) (register : Half) : (bits.foldl crcBit register).toNat = bits.foldl crcStep register.toNat := by
    induction bits generalizing register with
    | nil => rfl
    | cons b bits ih => rw [List.foldl_cons, List.foldl_cons, ih, crcBit_toNat]
  have hbyte (b : Byte) (register : Half) :
      crcByte register b = ([7, 6, 5, 4, 3, 2, 1, 0].map fun k => b.getLsbD k).foldl crcBit register := by
    rw [List.foldl_map]
    rfl
  have hall (register : Half) : bytes.foldl crcByte register
      = (bytes.flatMap fun b => [7, 6, 5, 4, 3, 2, 1, 0].map fun k => b.getLsbD k).foldl crcBit register := by
    induction bytes generalizing register with
    | nil => rfl
    | cons b bytes ih => rw [List.foldl_cons, List.flatMap_cons, List.foldl_append, ih, hbyte]
  rw [crc16, hall, hbits]
  rfl

/-! ## Nibbles and bytes as numbers -/

theorem hiNibble_toNat (b : Byte) : (hiNibble b).toNat = b.toNat / 16 := by
  have := b.isLt
  rw [hiNibble, BitVec.extractLsb'_toNat, Nat.shiftRight_eq_div_pow]
  omega

theorem loNibble_toNat (b : Byte) : (loNibble b).toNat = b.toNat % 16 := by
  rw [loNibble, BitVec.extractLsb'_toNat]
  rfl

theorem halfOf_toNat (hi lo : Byte) : (halfOf hi lo).toNat = 256 * hi.toNat + lo.toNat := by
  rw [halfOf, BitVec.toNat_append, Nat.shiftLeft_eq, Nat.mul_comm, ← Nat.two_pow_add_eq_or_of_lt lo.isLt]

theorem nibbles_toNat (a b : Nibble) : (a ++ b : Byte).toNat = 16 * a.toNat + b.toNat := by
  rw [BitVec.toNat_append, Nat.shiftLeft_eq, Nat.mul_comm, ← Nat.two_pow_add_eq_or_of_lt b.isLt]

/-- Two nibbles of every byte, the earlier in the high nibble; behind an odd one stands 0 (R149). -/
theorem nibbleAt_packNibbles (codes : List Nibble) (rest : List Byte) {k : Nat} (hk : k < codes.length + codes.length % 2) :
    nibbleAt (packNibbles codes ++ rest) 0 k = (codes.getD k 0).toNat := by
  induction codes using packNibbles.induct generalizing k with
  | case1 => simp at hk
  | case2 a =>
    have ha : (a ++ (0 : Nibble) : Byte).toNat = 16 * a.toNat := nibbles_toNat a 0
    rcases k with _ | _ | k
    · change (a ++ (0 : Nibble) : Byte).toNat / 16 = a.toNat
      omega
    · change (a ++ (0 : Nibble) : Byte).toNat % 16 = 0
      omega
    · simp at hk
  | case3 a b codes ih =>
    have hab := nibbles_toNat a b
    have := b.isLt
    rcases k with _ | _ | k
    · simp [nibbleAt, packNibbles, hab]
      omega
    · simp [nibbleAt, packNibbles, hab]
      omega
    · have hdiv : (k + 2) / 2 = k / 2 + 1 := by omega
      have hmod : (k + 2) % 2 = k % 2 := by omega
      have hnext := ih (k := k) (by simp only [List.length_cons] at hk; omega)
      simpa [nibbleAt, packNibbles, hdiv, hmod] using hnext

theorem packNibbles_length (codes : List Nibble) : (packNibbles codes).length = (codes.length + 1) / 2 := by
  induction codes using packNibbles.induct with
  | case1 => rfl
  | case2 a => simp [packNibbles]
  | case3 a b codes ih =>
    simp only [packNibbles, List.length_cons, ih]
    omega

/-- The nibbles behind a run of bytes are counted from its end. -/
theorem nibbleAt_append (front rest : List Byte) (k : Nat) : nibbleAt (front ++ rest) front.length k = nibbleAt rest 0 k := by
  have hget (i : Nat) : (front ++ rest).getD (front.length + i) 0 = rest.getD i 0 := by
    rw [List.getD_append_right _ _ _ _ (by omega), Nat.add_sub_cancel_left]
  unfold nibbleAt
  rw [hget, Nat.zero_add]

/-! ## Cells -/

theorem imageByte_eq_getD {image : List Byte} {i : Nat} (h : i < image.length) : imageByte image i = image.getD i 0 := by
  rw [imageByte, List.getD_eq_getElem _ _ h, List.getD_eq_getElem _ _ h]

/-- An image of thirty bytes is read by the cell layout table. -/
theorem cellFields_readCell {image : List Byte} (hlen : image.length = 30) : cellFields image (readCell image) := by
  have hb (i : Nat) (hi : i < 30) : imageByte image i = image.getD i 0 := imageByte_eq_getD (hlen ▸ hi)
  have hindex (b : Byte) : b.toNat % 8 = (b.extractLsb' 0 3).toNat := by
    rw [BitVec.extractLsb'_toNat]
    rfl
  have hpayload : (readCell image).payload = (image.drop 12).take 16 := readCell_payload (by omega)
  have hbyte (i : Fin 16) : ((image.drop 12).take 16).getD i.val 0 = image.getD (12 + i.val) 0 := by
    simp [List.getD_eq_getElem?_getD]
  refine ⟨?_, ?_, ?_, ?_, ?_, ?_, ?_, ?_, ?_, ?_, ?_, ?_, ?_, ?_, ?_, rfl, fun i => hpayload ▸ (hbyte i).symm⟩ <;>
    simp only [readCell, hb, byteAt, pairAt, hiNibble_toNat, loNibble_toNat, halfOf_toNat, ← hindex, Nat.reduceLT, Nat.reduceAdd]
  omega

/-- The flag bytes of a cell hold 0 where the cell layout table marks a bit "sent as 0". -/
theorem cellSpare_encodeCell (c : Cell) : cellSpare (encodeCell c) := by
  have hflags : ∀ (first last ackreq : Bool) (index : BitVec 3),
      (flagBit first 7 ||| flagBit last 6 ||| flagBit ackreq 5 ||| index.setWidth 8).toNat / 8 % 4 = 0 := by decide
  have hack : ∀ (valid : Bool) (target : Nibble), (flagBit valid 7 ||| target.setWidth 8).toNat / 16 % 8 = 0 := by decide
  have hspare (n : Nibble) : ((0 : Nibble) ++ n : Byte).toNat / 16 = 0 := by
    have := n.isLt
    have h : ((0 : Nibble) ++ n : Byte).toNat = n.toNat := by simpa using nibbles_toNat 0 n
    omega
  exact ⟨hflags c.first c.last c.ackreq c.index, hspare c.number, hack c.ackValid c.ackTarget, hspare c.ackNumber⟩

/-! ## Control contents -/

/-- Sixteen bytes are read by the control payload table. -/
theorem contentFields_readContent (payload : List Byte) : contentFields payload (readContent payload) := by
  refine ⟨(halfOf_toNat _ _).symm, rfl, rfl, rfl, (halfOf_toNat _ _).symm, rfl, rfl, fun k => ?_, rfl⟩
  have howner : (readContent payload).owners.getD k.val 0
      = if k.val % 2 = 0 then hiNibble (payload.getD (7 + k.val / 2) 0) else loNibble (payload.getD (7 + k.val / 2) 0) := by
    fin_cases k <;> rfl
  rw [howner, apply_ite BitVec.toNat, hiNibble_toNat, loNibble_toNat]
  rfl

/-- The bytes of a control content ahead of its owners. -/
def contentHead (c : ControlContent) : List Byte :=
  halfBytes c.frame ++ [c.current, flagBit c.carriesPending 0 ||| flagBit c.pendingExists 1] ++ halfBytes c.effective ++ [c.generation]

/-- A control content of fifteen owners is laid out by the control payload table. -/
theorem contentFields_encodeContent {c : ControlContent} (h : c.owners.length = 15) : contentFields (encodeContent c) c := by
  have hflags : ∀ carries exist : Bool, (flagBit carries 0 ||| flagBit exist 1).getLsbD 0 = carries
      ∧ (flagBit carries 0 ||| flagBit exist 1).getLsbD 1 = exist := by decide
  have hpair (x : Half) : 256 * (hiByte x).toNat + (loByte x).toNat = x.toNat := by rw [← halfOf_toNat, halfOf_hiByte_loByte]
  have hsplit : encodeContent c = contentHead c ++ (packNibbles c.owners ++ [c.rate]) := by simp [encodeContent, contentHead]
  have hrate : (packNibbles c.owners ++ [c.rate]).getD 8 0 = c.rate := by
    rw [List.getD_append_right _ _ _ _ (by rw [packNibbles_length, h]), packNibbles_length, h]
    rfl
  obtain ⟨hcarries, hexist⟩ := hflags c.carriesPending c.pendingExists
  refine ⟨hpair c.frame, rfl, hcarries, hexist, hpair c.effective, rfl, h, fun k => ?_, ?_⟩
  · rw [hsplit]
    exact (nibbleAt_append (contentHead c) _ k.val).trans (nibbleAt_packNibbles _ _ (by omega))
  · rw [hsplit, byteAt]
    exact congrArg BitVec.toNat hrate

/-- The flag byte and the last owner byte of a composed content hold 0 in their spare bits. -/
theorem contentSpare_encodeContent {c : ControlContent} (h : c.owners.length = 15) :
    byteAt (encodeContent c) 3 < 4 ∧ byteAt (encodeContent c) 14 % 16 = 0 := by
  have hflags : ∀ carries exist : Bool, (flagBit carries 0 ||| flagBit exist 1).toNat < 4 := by decide
  have hsplit : encodeContent c = contentHead c ++ (packNibbles c.owners ++ [c.rate]) := by simp [encodeContent, contentHead]
  have hlast : nibbleAt (encodeContent c) 7 15 = 0 := by
    rw [hsplit]
    refine (nibbleAt_append (contentHead c) _ 15).trans ((nibbleAt_packNibbles _ _ (by omega)).trans ?_)
    rw [List.getD_eq_default _ _ (by omega)]
    rfl
  exact ⟨hflags c.carriesPending c.pendingExists, hlast⟩

/-- The control payload table leaves a content no choice. -/
theorem content_eq_of_fields {bytes : List Byte} {c d : ControlContent} (hc : contentFields bytes c) (hd : contentFields bytes d) :
    c = d := by
  obtain ⟨hframe, hcurrent, hcarries, hexist, heffective, hgeneration, hlength, howners, hrate⟩ := hc
  obtain ⟨hframe', hcurrent', hcarries', hexist', heffective', hgeneration', hlength', howners', hrate'⟩ := hd
  have hlist : c.owners = d.owners := by
    refine List.ext_getElem (hlength.trans hlength'.symm) fun k hk hk' => BitVec.eq_of_toNat_eq ?_
    have hsame := (howners ⟨k, hlength ▸ hk⟩).symm.trans (howners' ⟨k, hlength ▸ hk⟩)
    rwa [List.getD_eq_getElem _ _ hk, List.getD_eq_getElem _ _ hk'] at hsame
  cases c
  cases d
  simp only [ControlContent.mk.injEq]
  exact ⟨BitVec.eq_of_toNat_eq (hframe.symm.trans hframe'), BitVec.eq_of_toNat_eq (hcurrent.symm.trans hcurrent'),
    hcarries.symm.trans hcarries', hexist.symm.trans hexist', BitVec.eq_of_toNat_eq (heffective.symm.trans heffective'),
    BitVec.eq_of_toNat_eq (hgeneration.symm.trans hgeneration'), hlist, BitVec.eq_of_toNat_eq (hrate.symm.trans hrate')⟩

theorem encodeContent_length {c : ControlContent} (h : c.owners.length = 15) : (encodeContent c).length = 16 := by
  simp [encodeContent, halfBytes, packNibbles_length, h]

/-- Settles O44: what is composed stands where the tables place it, and they determine what is read. -/
theorem cellsAreReadBack : Obligations.CellsAreReadBack := by
  have hcrc (image : List Byte) (h : image.length = 30) :
      (crc16 (imageBody image)).toNat = crcOf (image.take 28) ∧ (imageCrc image).toNat = pairAt image 28 := by
    rw [imageBody_eq_take (by omega), crc16_toNat, imageCrc, halfOf_toNat, imageByte_eq_getD (by omega), imageByte_eq_getD (by omega)]
    exact ⟨rfl, rfl⟩
  refine ⟨fun c hc => ?_, fun image hlen => ⟨cellFields_readCell hlen, ?_⟩, crc16_toNat, fun c hc => ?_,
    fun payload _ => contentFields_readContent payload⟩
  · have hread := readCell_encodeCell hc
    obtain ⟨hbody, hsent⟩ := hcrc _ (encodeCell_length c)
    have hsame := crc16_imageBody_encodeCell c
    refine ⟨encodeCell_length c, ?_, cellSpare_encodeCell c, ?_, hread, hsame⟩
    · exact (congrArg (cellFields (encodeCell c)) hread).mp (cellFields_readCell (encodeCell_length c))
    · rw [← hsent, ← hsame, hbody]
  · obtain ⟨hbody, hsent⟩ := hcrc image hlen
    rw [← hbody, ← hsent, BitVec.toNat_inj]
  · have hfields := contentFields_encodeContent hc
    obtain ⟨hflags, hlast⟩ := contentSpare_encodeContent hc
    exact ⟨encodeContent_length hc, hfields, hflags, hlast, content_eq_of_fields (contentFields_readContent _) hfields⟩

end Sys2Proof.Machine
end

section
/-! The control content a master composes, and the requests of the Map Unit (chapters 3 and 9). -/
namespace Sys2Proof.Machine

open Sys2Proof.Claims Sys2Proof.Safety

/-! ## The control content -/

theorem ownerNibble_toNat (o : Owner) : (ownerNibble o).toNat = ownerCode o := by
  cases o with
  | none => rfl
  | some n =>
    have := n.isLt
    simp only [ownerNibble, nodeNibble, ownerCode, BitVec.toNat_ofNat]
    omega

/-- The `k`-th owner code of a map is that of its slot `k + 1`. -/
theorem ownerNibbles_getD (o : SlotOwners) (k : Fin 15) (d : Nibble) : ((ownerNibbles o).getD k.val d).toNat = ownerCode (o.get k) := by
  rw [ownerNibbles, List.getD_eq_getElem _ _ (by simp), List.getElem_map, ownerNibble_toNat]
  rfl

/-- The mark and the map that a frame's control content carries, in an odd frame and in an even one (R42). -/
def carriedMap (odd : Bool) (active : SlotMap) : Option PendingMap → Bool × SlotMap
  | none => (false, active)
  | some p => if odd then (true, p.map) else (false, active)

/-- The active map is carried without the mark, the pending map with it. -/
theorem carriedMap_cases (odd : Bool) (active : SlotMap) (pending : Option PendingMap) :
    (carriedMap odd active pending = (false, active) ∧ ¬(pending.isSome = true ∧ odd = true))
      ∨ ∃ p, pending = some p ∧ odd = true ∧ carriedMap odd active pending = (true, p.map) := by
  cases pending with
  | none => exact .inl ⟨rfl, by simp⟩
  | some p =>
    cases odd with
    | false => exact .inl ⟨rfl, by simp⟩
    | true => exact .inr ⟨p, rfl, rfl, rfl⟩

/-- What a master composes reads back with the fields of its Map Unit (R42). -/
theorem contentFor_controlContent {s : State} {m : SlotMap} (h : s.map.active = some m) :
    contentFor s.link.frame s.station.config.rateCode m s.map.pendingMap (encodeContent (controlContent s)) := by
  obtain ⟨carried, hcarried⟩ : ∃ x, x = carriedMap (s.link.frame.getLsbD 0) m s.map.pendingMap := ⟨_, rfl⟩
  have hcontent : controlContent s =
      { frame := s.link.frame, current := m.generation, carriesPending := carried.1, pendingExists := s.map.pendingMap.isSome,
        effective := (s.map.pendingMap.map fun p => p.effective).getD 0, generation := carried.2.generation,
        owners := ownerNibbles carried.2.owners, rate := s.station.config.rateCode.setWidth 8 } := by
    rw [hcarried, controlContent, h]
    rfl
  have howners : (controlContent s).owners.length = 15 := by simp [hcontent, ownerNibbles]
  have hread : readContent (encodeContent (controlContent s)) = controlContent s :=
    content_eq_of_fields (contentFields_readContent _) (contentFields_encodeContent howners)
  have hodd : s.link.frame.getLsbD 0 = true ↔ s.link.frame.toNat % 2 = 1 := by
    rw [BitVec.getLsbD, Nat.testBit_zero, decide_eq_true_iff]
  have hrate : (s.station.config.rateCode.setWidth 8).toNat = s.station.config.rateCode.toNat := by
    have := s.station.config.rateCode.isLt
    rw [BitVec.toNat_setWidth]
    omega
  have heffective : ((s.map.pendingMap.map fun p => p.effective).getD 0)
      = (match s.map.pendingMap with | none => 0 | some p => p.effective) := by
    cases s.map.pendingMap <;> rfl
  have hcodes (k : Fin 15) : ((ownerNibbles carried.2.owners).getD k.val 15).toNat = ownerCode (carried.2.owners.get k) :=
    ownerNibbles_getD _ k 15
  refine ⟨encodeContent_length howners, ?_⟩
  simp only [hread]
  rw [hcontent]
  refine ⟨rfl, rfl, hrate, rfl, heffective, ?_⟩
  rcases carriedMap_cases (s.link.frame.getLsbD 0) m s.map.pendingMap with ⟨e, hnot⟩ | ⟨p, hp, hone, e⟩ <;>
    rw [← hcarried] at e <;> subst e
  · exact ⟨⟨fun hc => by simp at hc, fun hc => absurd ⟨hc.1, hodd.2 hc.2⟩ hnot⟩, fun _ => ⟨rfl, hcodes⟩, fun _ _ hc => by simp at hc⟩
  · refine ⟨⟨fun _ => ⟨by simp [hp], hodd.1 hone⟩, fun _ => rfl⟩, fun hc => by simp at hc, fun q hq _ => ?_⟩
    obtain rfl : p = q := Option.some.inj (hp.symm.trans hq)
    exact ⟨rfl, hcodes⟩

/-- R35, R42: what a master's Map Unit holds after the rest of its boundary work. -/
theorem closeMapWork_master {s : State} (h : s.station.config.role = .master) :
    closeMapWork s = { s with
      map.frameGeneration := generationOf s
      map.content := some (encodeContent (controlContent (setFrameGeneration s))) } := by
  unfold closeMapWork
  dsimp only [setFrameGeneration]
  rw [if_pos h]
  rfl

theorem closeMapWork_member {s : State} (h : s.station.config.role = .member) :
    closeMapWork s = { s with map.frameGeneration := generationOf s } := by
  unfold closeMapWork
  dsimp only [setFrameGeneration]
  rw [if_neg (by simp [h])]
  rfl

/-! ## MAP_COMMIT -/

theorem turnedAway_mapCommit {s : State} (hrole : s.station.config.role = .master)
    (hstate : s.station.state = .detached ∨ s.station.state = .attached) :
    turnedAway .mapCommit s.station.state s.station.config.role = none := by
  rcases hstate with h | h <;> rw [h, hrole] <;> rfl

/-- The effective frame is the frame now plus the lead, modulo 65536 (R38). -/
theorem effectiveFrame_eq (frame : Half) (lead : Byte) : frame + lead.setWidth 16 = BitVec.ofNat 16 (frame.toNat + lead.toNat) := by
  apply BitVec.eq_of_toNat_eq
  simp

/-- Settles O30: the lead is checked first; then the station state says whether the staged map is installed or announced. -/
theorem mapCommitInstallsOrAnnounces : Obligations.MapCommitInstallsOrAnnounces := by
  intro seq lead s hn hrole
  have hanswered {status : Status} {data : List Byte} {u : State}
      (hstate : s.station.state = .detached ∨ s.station.state = .attached) (h : requestMapCommit [lead] s = (status, data, u)) :
      exec (.mapCommit seq [lead]) s = .next (answered 0x91 seq status data u) :=
    exec_answered (k := .mapCommit) (params := [lead]) (by decide) hn rfl (turnedAway_mapCommit hrole hstate) h
  have hattached (hs : s.station.state = .attached) (hlead : 4 ≤ lead.toNat) :
      requestMapCommit [lead] s = commitPending lead s := by
    rw [requestMapCommit, if_neg (by simpa [param] using hlead), if_neg (by simp [hs])]
    rfl
  refine ⟨fun hs hlead => hanswered hs (if_pos hlead), fun m hs hlead hm => hanswered (.inl hs) ?_,
    fun hs hlead hp => hanswered (.inr hs) ?_, fun m hs hlead hp hm => hanswered (.inr hs) ?_⟩
  · rw [requestMapCommit, if_neg (by simpa [param] using hlead), if_pos hs]
    simp [commitAtOnce, activeGeneration, setFrameGeneration, hm]
  · rw [hattached hs hlead]
    exact if_pos hp
  · rw [hattached hs hlead, commitPending, if_neg (by simp [hp])]
    simp [activeGeneration, hm, effectiveFrame_eq, halfBytes_eq]

/-! ## MAP_WITHDRAW -/

theorem turnedAway_mapWithdraw {s : State} (hstate : s.station.state ≠ .unconfigured) :
    turnedAway .mapWithdraw s.station.state s.station.config.role
      = if s.station.config.role = .member then some .notMaster else none := by
  cases h : s.station.state with
  | unconfigured => exact absurd h hstate
  | detached | attached | detaching => rfl

/-- The switch of a withdrawn map gives way to the rest of the boundary work, which composes the content of the map that stays (R40). -/
theorem dropSwitch_master {s : State} (hrole : s.station.config.role = .master) (hmem : Work.mapSwitch ∈ s.due) {m : SlotMap}
    (hm : s.map.active = some m) : ∃ bytes, contentFor s.link.frame s.station.config.rateCode m s.map.pendingMap bytes
      ∧ dropSwitch s = { s with
          due := s.due.erase .mapSwitch
          map := { s.map with frameGeneration := some m.generation, content := some bytes } } := by
  have hdrop := dropSwitch_of_mem hmem
  rw [closeMapWork_master (by exact hrole)] at hdrop
  refine ⟨_, contentFor_controlContent (s := setFrameGeneration { s with due := s.due.erase .mapSwitch }) hm, ?_⟩
  rw [hdrop]
  simp [generationOf, hm]

/-- Settles O31: the table decides who may ask; the pending map and the last outcome give the answer. -/
theorem mapWithdrawTakesThePendingMapBack : Obligations.MapWithdrawTakesThePendingMapBack := by
  intro seq s hn
  have hanswered {status : Status} {data : List Byte} {u : State} (hstate : s.station.state ≠ .unconfigured)
      (hrole : s.station.config.role = .master) (h : requestMapWithdraw s = (status, data, u)) :
      exec (.mapWithdraw seq []) s = .next (answered 0x92 seq status data u) :=
    exec_answered (k := .mapWithdraw) (params := []) (by decide) hn rfl
      ((turnedAway_mapWithdraw hstate).trans (by rw [hrole]; rfl)) h
  have hnone (hp : s.map.pendingMap = none) :
      requestMapWithdraw s = if s.map.outcome = .applied then refuse .tooLate s else refuse .nothingPending s := by
    rw [requestMapWithdraw, hp]
    rfl
  refine ⟨fun hu => ?_, fun hu hr => ?_, fun hu hr hp => ⟨fun hw => hanswered hu hr ?_, fun hw m hm => ?_⟩,
    fun hu hr hp ho => hanswered hu hr ?_, fun hu hr hp ho => hanswered hu hr ?_⟩
  · exact exec_turnedAway (k := .mapWithdraw) (params := []) hn rfl (by rw [hu]; rfl) (by decide)
  · exact exec_turnedAway (k := .mapWithdraw) (params := []) hn rfl ((turnedAway_mapWithdraw hu).trans (if_pos hr)) (by decide)
  · rw [requestMapWithdraw, if_pos hp, dropSwitch_of_not_mem (by exact hw)]
  · obtain ⟨bytes, hbytes, hdrop⟩ :=
      dropSwitch_master (s := { s with map.pendingMap := none, map.outcome := .withdrawn }) hr hw hm
    refine ⟨bytes, hbytes, hanswered hu hr ?_⟩
    rw [requestMapWithdraw, if_pos hp, hdrop]
  · rw [hnone hp, if_pos ho]
    rfl
  · rw [hnone hp, if_neg (by rcases ho with h | h <;> simp [h])]
    rfl

/-! ## MAP_STAGE -/

theorem pairsOperand_flatMap (pairs : List (Byte × Byte)) : pairsOperand (pairs.flatMap fun p => [p.1, p.2]) = pairs := by
  induction pairs with
  | nil => rfl
  | cons p pairs ih => simpa [pairsOperand] using ih

theorem badPair_eq_false_iff (p : Byte × Byte) :
    badPair p = false ↔ 1 ≤ p.1.toNat ∧ p.1.toNat ≤ 15 ∧ (p.2.toNat ≤ 11 ∨ p.2.toNat = 15) := by
  have hzero : p.1 = 0 ↔ p.1.toNat = 0 := BitVec.toNat_inj.symm
  simp only [badPair, invalidOwner, Bool.or_eq_false_iff, beq_eq_false_iff_ne, decide_eq_false_iff_not, Bool.and_eq_false_iff, ne_eq,
    hzero]
  omega

theorem repeatsSlot_eq_false_iff (pairs : List (Byte × Byte)) : repeatsSlot pairs = false ↔ (pairs.map fun p => p.1).Nodup := by
  induction pairs with
  | nil => simp [repeatsSlot]
  | cons p pairs ih =>
    have hmem : (pairs.any fun q => q.1 == p.1) = false ↔ p.1 ∉ pairs.map fun q => q.1 := by
      rw [List.any_eq_false, List.mem_map, not_exists]
      exact forall_congr' fun q => by simp
    rw [repeatsSlot, Bool.or_eq_false_iff, hmem, ih, List.map_cons, List.nodup_cons]

/-- Staging one pair sets the owner of its slot and leaves the others (R36). -/
theorem stagePair_get (staged : SlotOwners) (p : Byte × Byte) (k : Fin 15) :
    (stagePair staged p).get k = if k.val + 1 = p.1.toNat then ownerOf (loNibble p.2) else staged.get k := by
  simp [stagePair, Vector.get_eq_getElem]

theorem ownerCode_of_code {b : Byte} (h : b.toNat ≤ 11 ∨ b.toNat = 15) : ownerCode (ownerOf (loNibble b)) = b.toNat := by
  have hlow : (loNibble b).toNat = b.toNat := by
    rw [loNibble_toNat]
    omega
  rw [ownerCode_ownerOf, hlow]
  rintro (e | e | e) <;> rw [e] at hlow
  · exact absurd (show b.toNat = 12 from hlow.symm) (by omega)
  · exact absurd (show b.toNat = 13 from hlow.symm) (by omega)
  · exact absurd (show b.toNat = 14 from hlow.symm) (by omega)

/-- A slot that no pair names keeps its owner. -/
theorem foldl_stagePair_of_not_named {k : Fin 15} (pairs : List (Byte × Byte)) (staged : SlotOwners)
    (h : ∀ p ∈ pairs, p.1.toNat ≠ k.val + 1) : (pairs.foldl stagePair staged).get k = staged.get k := by
  induction pairs generalizing staged with
  | nil => rfl
  | cons p pairs ih =>
    rw [List.foldl_cons, ih _ fun q hq => h q (List.mem_cons_of_mem p hq), stagePair_get, if_neg (h p List.mem_cons_self).symm]

/-- A slot that one pair names takes its owner. -/
theorem foldl_stagePair_of_named {k : Fin 15} {p : Byte × Byte} (hk : p.1.toNat = k.val + 1) (pairs : List (Byte × Byte))
    (hnodup : (pairs.map fun p => p.1).Nodup) (hp : p ∈ pairs) (staged : SlotOwners) :
    (pairs.foldl stagePair staged).get k = ownerOf (loNibble p.2) := by
  induction pairs generalizing staged with
  | nil => simp at hp
  | cons q pairs ih =>
    obtain ⟨hq, hrest⟩ := List.nodup_cons.1 hnodup
    rw [List.foldl_cons]
    rcases List.mem_cons.1 hp with rfl | hp
    · rw [foldl_stagePair_of_not_named pairs, stagePair_get, if_pos hk.symm]
      intro r hr hrk
      exact hq (List.mem_map.2 ⟨r, hr, BitVec.eq_of_toNat_eq (hrk.trans hk.symm)⟩)
    · exact ih hrest hp _

/-- Settles O29: the four checks on the list, then its pairs one after another, no two for one slot. -/
theorem mapStageSetsTheOwnersNamed : Obligations.MapStageSetsTheOwnersNamed := by
  intro seq pairs s hn hstate hrole
  have hchecks : (pairs.length < 1 ∨ 15 < pairs.length ∨ pairs.any badPair = true ∨ repeatsSlot pairs = true)
      ↔ ¬(1 ≤ pairs.length ∧ pairs.length ≤ 15
        ∧ (∀ p ∈ pairs, 1 ≤ p.1.toNat ∧ p.1.toNat ≤ 15 ∧ (p.2.toNat ≤ 11 ∨ p.2.toNat = 15))
        ∧ (pairs.map fun p => p.1).Nodup) := by
    have hall : (∀ p ∈ pairs, 1 ≤ p.1.toNat ∧ p.1.toNat ≤ 15 ∧ (p.2.toNat ≤ 11 ∨ p.2.toNat = 15)) ↔ pairs.any badPair = false := by
      rw [List.any_eq_false]
      exact forall₂_congr fun p _ => by rw [← badPair_eq_false_iff, Bool.not_eq_true]
    rw [hall, ← repeatsSlot_eq_false_iff, ← Bool.not_eq_true, ← Bool.not_eq_true, ← not_lt, ← not_lt]
    tauto
  have hanswered {status : Status} {data : List Byte} {u : State}
      (h : requestMapStage (pairs.flatMap fun p => [p.1, p.2]) s = (status, data, u)) :
      exec (.mapStage seq (pairs.flatMap fun p => [p.1, p.2])) s = .next (answered 0x90 seq status data u) := by
    refine exec_answered (k := .mapStage) (by decide) hn ⟨pairs.length + 1, ?_⟩ ?_ h
    · simp
      omega
    · cases hs : s.station.state with
      | unconfigured => exact absurd hs hstate
      | detached | attached | detaching => exact if_neg (by simp [hrole])
  refine ⟨fun hbad => hanswered ?_, fun hgood => ⟨pairs.foldl stagePair s.map.staged, hanswered ?_, fun k => ⟨fun p hp hk => ?_, fun hk => ?_⟩⟩⟩
  · rw [requestMapStage, pairsOperand_flatMap]
    exact if_pos (hchecks.2 hbad)
  · rw [requestMapStage, pairsOperand_flatMap]
    exact if_neg fun h => hchecks.1 h hgood
  · obtain ⟨-, -, hrange, hnodup⟩ := hgood
    rw [foldl_stagePair_of_named hk pairs hnodup hp, ownerCode_of_code (hrange p hp).2.2]
  · exact foldl_stagePair_of_not_named pairs _ hk

end Sys2Proof.Machine
end

section
/-! The requests that read the maps and the tables, CONFIGURE and DETACH (chapters 9 and 10). -/
namespace Sys2Proof.Machine

open Sys2Proof.Claims Sys2Proof.Safety

/-! ## MAP_READ -/

/-- What stands behind a run of `n` bytes is counted from its end. -/
theorem getD_skip {front rest : List Byte} {n : Nat} (h : front.length = n) (i : Nat) : (front ++ rest).getD (n + i) 0 = rest.getD i 0 := by
  rw [List.getD_append_right _ _ _ _ (by omega), h, Nat.add_sub_cancel_left]

theorem nibbleAt_skip {front rest : List Byte} {n : Nat} (h : front.length = n) (base k : Nat) :
    nibbleAt (front ++ rest) (n + base) k = nibbleAt rest base k := by
  unfold nibbleAt
  rw [Nat.add_assoc, getD_skip h]

theorem nodeByte_toNat (n : Node) : (nodeByte n).toNat = n.val := by
  have := n.isLt
  rw [nodeByte, BitVec.toNat_ofNat]
  omega

theorem mapFlags_toNat (s : State) : (mapFlags s).toNat
    = bit (decide (s.station.config.role = .master)) 0 + bit s.map.active.isSome 1 + bit s.map.frameGeneration.isSome 2
      + bit s.map.pendingMap.isSome 3 + bit s.map.masterNode.isSome 4 + bit s.map.masterRate.isSome 5 := by
  have hbits : ∀ a b c d e f : Bool,
      (flagBit a 0 ||| flagBit b 1 ||| flagBit c 2 ||| flagBit d 3 ||| flagBit e 4 ||| flagBit f 5).toNat
        = bit a 0 + bit b 1 + bit c 2 + bit d 3 + bit e 4 + bit f 5 := by decide
  exact hbits (decide (s.station.config.role = .master)) _ _ _ _ _

theorem activeNibbles_length (s : State) : (activeNibbles s).length = 16 := by
  unfold activeNibbles
  split <;> simp [ownerNibbles]

/-- The owner codes of slots 0 to 15 that MAP_READ gives (R149). -/
theorem activeNibbles_getD (s : State) :
    (s.map.active = none → ∀ slot : Slot, ((activeNibbles s).getD slot.val 0).toNat = 15)
      ∧ ∀ m, s.map.active = some m → ((activeNibbles s).getD 0 0).toNat = ownerCode s.map.masterNode
          ∧ ∀ k : Fin 15, ((activeNibbles s).getD (k.val + 1) 0).toNat = ownerCode (m.owners.get k) := by
  unfold activeNibbles
  refine ⟨fun h slot => ?_, fun m h => ?_⟩ <;> rw [h]
  · dsimp only
    rw [List.getD_eq_getElem _ _ (by simp), List.getElem_replicate]
    rfl
  · exact ⟨ownerNibble_toNat _, fun k => ownerNibbles_getD m.owners k 0⟩

/-- Byte 14 of MAP_READ: the boundaries still to come, one whose switch is still to be done among them (R149). -/
theorem boundariesToCome_cases (s : State) :
    (s.map.pendingMap = none → (boundariesToCome s).toNat = 0)
      ∧ ∀ p, s.map.pendingMap = some p →
          (Work.mapSwitch ∉ s.due → (p.effective - s.link.frame).toNat ≤ 255 →
              (boundariesToCome s).toNat = (p.effective - s.link.frame).toNat)
            ∧ (Work.mapSwitch ∈ s.due → 1 ≤ (boundariesToCome s).toNat) := by
  unfold boundariesToCome
  refine ⟨fun h => ?_, fun p h => ⟨fun hw hd => ?_, fun hw => ?_⟩⟩ <;> rw [h]
  · rfl
  · dsimp only
    rw [if_neg hw, if_pos hd, loByte, BitVec.extractLsb'_toNat, Nat.shiftRight_zero]
    omega
  · dsimp only
    rw [if_pos hw]
    decide

theorem ownedSlotCount_le (s : State) : ownedSlotCount s ≤ 15 := by
  unfold ownedSlotCount
  split
  · exact List.countP_le_length.trans (by simp)
  · omega

/-- Where the parts of MAP_READ's bytes stand, one behind another. -/
theorem mapRead_layout {a b c d e f : List Byte} (ha : a.length = 3) (hb : b.length = 8) (hc : c.length = 4) (hd : d.length = 8)
    (he : e.length = 8) (all : List Byte) (h : all = a ++ (b ++ (c ++ (d ++ (e ++ f))))) :
    (∀ k, nibbleAt all 3 k = nibbleAt (b ++ (c ++ (d ++ (e ++ f)))) 0 k)
      ∧ (∀ i, all.getD (11 + i) 0 = (c ++ (d ++ (e ++ f))).getD i 0)
      ∧ (∀ k, nibbleAt all 15 k = nibbleAt (d ++ (e ++ f)) 0 k)
      ∧ (∀ k, nibbleAt all 23 k = nibbleAt (e ++ f) 0 k)
      ∧ ∀ i, all.getD (31 + i) 0 = f.getD i 0 := by
  subst h
  have hab : (a ++ b).length = 11 := by simp [ha, hb]
  have habc : ((a ++ b) ++ c).length = 15 := by simp [ha, hb, hc]
  have habcd : (((a ++ b) ++ c) ++ d).length = 23 := by simp [ha, hb, hc, hd]
  have habcde : ((((a ++ b) ++ c) ++ d) ++ e).length = 31 := by simp [ha, hb, hc, hd, he]
  refine ⟨fun k => nibbleAt_skip ha 0 k, fun i => ?_, fun k => ?_, fun k => ?_, fun i => ?_⟩
  · rw [← List.append_assoc, getD_skip hab]
  · rw [← List.append_assoc, ← List.append_assoc]
    exact nibbleAt_skip habc 0 k
  · rw [← List.append_assoc, ← List.append_assoc, ← List.append_assoc]
    exact nibbleAt_skip habcd 0 k
  · rw [← List.append_assoc, ← List.append_assoc, ← List.append_assoc, ← List.append_assoc, getD_skip habcde]

/-- The three runs of owner codes among MAP_READ's 35 bytes, with the bytes ahead of, between and behind them. -/
theorem mapReadData_eq (s : State) : mapReadData s =
    [mapFlags s, (activeGeneration s).getD 0, s.map.frameGeneration.getD 0] ++ (packNibbles (activeNibbles s)
      ++ ([(s.map.pendingMap.map fun q => q.map.generation).getD 0, hiByte ((s.map.pendingMap.map fun q => q.effective).getD 0),
          loByte ((s.map.pendingMap.map fun q => q.effective).getD 0), boundariesToCome s]
        ++ (packNibbles (ownerNibbles ((s.map.pendingMap.map fun q => q.map.owners).getD SlotOwners.noOwner))
          ++ (packNibbles (ownerNibbles s.map.staged)
            ++ [(s.map.masterNode.map nodeByte).getD 0, (s.map.masterRate.map fun r => r.setWidth 8).getD 0, s.map.outcome.code,
              byteOf (ownedSlotCount s)])))) := by
  simp [mapReadData, halfBytes]

/-- Settles O17: the reply's runs are skipped one after another, each field is read behind those ahead of it. -/
theorem mapReadReportsTheMapUnit : Obligations.MapReadReportsTheMapUnit := by
  intro seq s hn
  refine ⟨mapReadData s, exec_answered (k := .mapRead) (params := []) (by decide) hn rfl rfl rfl, ?_⟩
  have hactive : (packNibbles (activeNibbles s)).length = 8 := by rw [packNibbles_length, activeNibbles_length]
  have howners (o : SlotOwners) : (packNibbles (ownerNibbles o)).length = 8 := by simp [packNibbles_length, ownerNibbles]
  have hnibbles (o : SlotOwners) (rest : List Byte) : (∀ k : Fin 15, nibbleAt (packNibbles (ownerNibbles o) ++ rest) 0 k.val = ownerCode (o.get k))
      ∧ nibbleAt (packNibbles (ownerNibbles o) ++ rest) 0 15 = 0 := by
    have hlen : (ownerNibbles o).length = 15 := by simp [ownerNibbles]
    refine ⟨fun k => ?_, ?_⟩
    · rw [nibbleAt_packNibbles _ _ (by omega), ownerNibbles_getD]
    · rw [nibbleAt_packNibbles _ _ (by omega), List.getD_eq_default _ _ (by omega)]
      rfl
  have hfirst (rest : List Byte) (k : Nat) (hk : k < 16) :
      nibbleAt (packNibbles (activeNibbles s) ++ rest) 0 k = ((activeNibbles s).getD k 0).toNat :=
    nibbleAt_packNibbles _ _ (by rw [activeNibbles_length]; omega)
  have hnone (k : Fin 15) : ownerCode (SlotOwners.noOwner.get k) = 15 := by
    fin_cases k <;> rfl
  have hpair (x : Half) : 256 * (hiByte x).toNat + (loByte x).toNat = x.toNat := by rw [← halfOf_toNat, halfOf_hiByte_loByte]
  have hcount : (byteOf (ownedSlotCount s)).toNat = ownedSlotCount s := by
    have := ownedSlotCount_le s
    rw [byteOf, BitVec.toNat_ofNat]
    omega
  obtain ⟨hempty, hmap⟩ := activeNibbles_getD s
  obtain ⟨hcome, hcomes⟩ := boundariesToCome_cases s
  obtain ⟨hat3, hat11, hat15, hat23, hat31⟩ := mapRead_layout rfl hactive rfl (howners _) (howners _) _ (mapReadData_eq s)
  have hpending : pairAt (mapReadData s) 12 = ((s.map.pendingMap.map PendingMap.effective).getD 0).toNat :=
    (congrArg₂ (fun x y : Byte => 256 * x.toNat + y.toNat) (hat11 1) (hat11 2)).trans (hpair _)
  have hlength : (mapReadData s).length = 35 := by
    rw [mapReadData_eq]
    simp [hactive, howners]
  refine ⟨hlength, ?_, rfl, rfl, fun h slot => ?_, fun m h => ⟨?_, fun k => ?_⟩, fun h => ⟨?_, ?_, ?_, fun k => ?_⟩,
    fun p h => ⟨?_, ?_, fun hw hd => ?_, fun hw => ?_, fun k => ?_⟩, ?_, ?_, fun k => ?_, ?_, ?_, ?_, ?_⟩
  · exact mapFlags_toNat s
  · rw [hat3, hfirst _ _ slot.isLt, hempty h]
  · rw [hat3, hfirst _ _ (by decide), (hmap m h).1]
  · rw [hat3, hfirst _ _ (by omega), (hmap m h).2]
  · exact (congrArg BitVec.toNat (hat11 0)).trans (by rw [h]; rfl)
  · rw [hpending, h]
    rfl
  · exact (congrArg BitVec.toNat (hat11 3)).trans (hcome h)
  · rw [hat15, (hnibbles _ _).1, h]
    exact hnone k
  · exact (hat11 0).trans (by rw [h]; rfl)
  · rw [hpending, h]
    rfl
  · exact (congrArg BitVec.toNat (hat11 3)).trans ((hcomes p h).1 hw hd)
  · exact ((hcomes p h).2 hw).trans_eq (congrArg BitVec.toNat (hat11 3)).symm
  · rw [hat15, (hnibbles _ _).1, h]
    rfl
  · rw [hat15, (hnibbles _ _).2]
  · rw [hat23, (hnibbles _ _).2]
  · rw [hat23, (hnibbles _ _).1]
  · refine (congrArg BitVec.toNat (hat31 0)).trans ?_
    cases s.map.masterNode with
    | none => rfl
    | some n => exact nodeByte_toNat n
  · refine (congrArg BitVec.toNat (hat31 1)).trans ?_
    cases s.map.masterRate with
    | none => rfl
    | some r => exact BitVec.toNat_setWidth_of_le (show 2 ≤ 8 by decide)
  · refine (congrArg BitVec.toNat (hat31 2)).trans ?_
    cases s.map.outcome <;> rfl
  · exact (congrArg BitVec.toNat (hat31 3)).trans (hcount.trans (ownedSlotCount_eq s))

/-! ## PEER_READ -/

theorem peerFlags_toNat (n : Node) (s : State) : (peerFlags n s).toNat
    = bit (s.rx.peers.get n).lastAccepted.isSome 0 + bit (s.tx.sendTable.get n).isSome 1
      + bit (decide (∃ o ∈ s.rx.owed, o.source = n)) 2 := by
  have hbits : ∀ a b c : Bool, (flagBit a 0 ||| flagBit b 1 ||| flagBit c 2).toNat = bit a 0 + bit b 1 + bit c 2 := by decide
  have howed : isOwed n s = decide (∃ o ∈ s.rx.owed, o.source = n) := by
    rw [Bool.eq_iff_iff]
    simp [isOwed]
  rw [← howed]
  exact hbits _ _ _

/-- A number of a table, 0 where it is absent (R156). -/
theorem numberOrZero_toNat (x : Option Nibble) :
    ((x.map fun x => x.setWidth 8).getD 0 : Byte).toNat = (match x with | none => 0 | some x => x.toNat) := by
  cases x with
  | none => rfl
  | some x => exact (BitVec.toNat_setWidth ..).trans (Nat.mod_eq_of_lt (by omega))

/-- The four bytes of a node stand behind those of the nodes below it. -/
theorem peerReadData_getD (s : State) (n : Node) (i : Fin 4) : (peerReadData s).getD (4 * n.val + i.val) 0 = (peerData s n).getD i.val 0 := by
  fin_cases n <;> fin_cases i <;> rfl

/-- Settles O18: the nodes in order, four bytes each. -/
theorem peerReadReportsTheTables : Obligations.PeerReadReportsTheTables := by
  intro seq s hn
  refine ⟨peerReadData s, exec_answered (k := .peerRead) (params := []) (by decide) hn rfl rfl rfl, rfl, fun n => ⟨?_, ?_, ?_, ?_⟩⟩
  · exact (congrArg BitVec.toNat (peerReadData_getD s n 0)).trans (peerFlags_toNat n s)
  · exact peerReadData_getD s n 1
  · exact (congrArg BitVec.toNat (peerReadData_getD s n 2)).trans (numberOrZero_toNat _)
  · exact (congrArg BitVec.toNat (peerReadData_getD s n 3)).trans (numberOrZero_toNat _)

/-! ## CONFIGURE -/

theorem configOperand_of_parts (role : Role) (node : Node) (epoch : Byte) (rate : BitVec 2) (wait limit : Nat) (hepoch : epoch ≠ 0)
    (hwait : 2 ≤ wait) (hwait' : wait ≤ 15) (hlimit : limit ≤ 7) :
    configOperand [(match role with | .member => 0 | .master => 1), BitVec.ofNat 8 node.val, epoch, rate.setWidth 8,
        BitVec.ofNat 8 wait, BitVec.ofNat 8 limit] = some ⟨role, some node, epoch, rate, wait, limit⟩ := by
  have hnode : (BitVec.ofNat 8 node.val).toNat = node.val := nodeByte_toNat node
  have hepoch' : 1 ≤ epoch.toNat := Nat.one_le_iff_ne_zero.2 fun h => hepoch (BitVec.eq_of_toNat_eq h)
  have hrate : (rate.setWidth 8).toNat = rate.toNat := (BitVec.toNat_setWidth ..).trans (Nat.mod_eq_of_lt (by omega))
  have hbyte {n : Nat} (h : n ≤ 15) : (BitVec.ofNat 8 n).toNat = n := by
    rw [BitVec.toNat_ofNat]
    omega
  have hwaits := hbyte hwait'
  have hlimits := hbyte (n := limit) (by omega)
  have hback : (rate.setWidth 8).setWidth 2 = rate := BitVec.setWidth_setWidth_of_le rate (by decide)
  rw [configOperand_bytes, if_pos]
  · rw [configOfBytes, hnode, hwaits, hlimits, hback, nodeOf?_eq_some.2 rfl]
    cases role <;> rfl
  · refine ⟨?_, by omega, hepoch', by omega, by omega, by omega, by omega⟩
    cases role <;> decide

/-- The tables after a configuration that passed its checks: a new epoch clears every send number and open set, a changed node its
own entries (R66, R67, R77, R158). -/
theorem forgetNumbers_tables (c : Configuration) {node : Node} (hnode : c.node = some node) (s : State) (n : Node) :
    (forgetNumbers c s).tx.sendTable.get n
        = (if c.epoch ≠ s.station.config.epoch ∨ (s.station.config.node ≠ some node ∧ n = node) then none else s.tx.sendTable.get n)
      ∧ (forgetNumbers c s).tx.openSets.get n
        = (if c.epoch ≠ s.station.config.epoch ∨ (s.station.config.node ≠ some node ∧ n = node) then 0 else s.tx.openSets.get n)
      ∧ (forgetNumbers c s).rx.peers.get n
        = (if s.station.config.node ≠ some node ∧ n = node then ⟨none, none⟩ else s.rx.peers.get n) := by
  have hcleared {α : Type} (v : Vector α 12) (a : α) : (v.set node.val a).get n = if n = node then a else v.get n := by
    simp only [Vector.get_eq_getElem, Vector.getElem_set, Fin.ext_iff, eq_comm]
  have hreplicate {α : Type} (a : α) : (Vector.replicate 12 a).get n = a := by simp [Vector.get_eq_getElem]
  unfold forgetNumbers
  simp only [hnode]
  by_cases he : c.epoch = s.station.config.epoch <;> by_cases hn : s.station.config.node = some node <;>
    simp [he, hn, hcleared, hreplicate]

/-- Nothing else is forgotten. -/
theorem forgetNumbers_frame (c : Configuration) (s : State) :
    forgetNumbers c s = { s with
      tx := { s.tx with sendTable := (forgetNumbers c s).tx.sendTable, openSets := (forgetNumbers c s).tx.openSets }
      rx := { s.rx with peers := (forgetNumbers c s).rx.peers } } := by
  unfold forgetNumbers
  dsimp only
  (repeat' split) <;> rfl

/-- Settles O25: the six bytes are a configuration, which is written whole over the tables it clears. -/
theorem configureWritesTheWhole : Obligations.ConfigureWritesTheWhole := by
  intro seq role node epoch rate wait limit s hn hopen hrecords hepoch hwait hwait' hlimit
  have hparts := configOperand_of_parts role node epoch rate wait limit hepoch hwait hwait' hlimit
  have htaken : turnedAway .configure s.station.state s.station.config.role = none := by
    rcases hopen with h | h <;> rw [h] <;> rfl
  refine ⟨_, exec_answered (k := .configure) (params := [_, _, _, _, _, _]) (by decide) hn rfl htaken
    (requestConfigure_accepted hparts hrecords), rfl, ?_, ?_, ?_, ?_, fun n => ?_, ?_⟩
  · cases role with
    | member => exact ⟨rfl, rfl, rfl, rfl⟩
    | master => exact ⟨⟨_, rfl, rfl, fun k => by fin_cases k <;> rfl⟩, rfl, rfl, rfl⟩
  · cases role <;> rfl
  · cases role <;> (intro k; fin_cases k <;> rfl)
  · cases role <;> rfl
  · exact forgetNumbers_tables _ rfl s n
  · unfold applyConfig
    dsimp only
    rw [forgetNumbers_frame]

/-! ## DETACH -/

/-- `s` with other work left, or with the Transmit Scheduler's work begun or not. -/
def withWork (due : List Work) (begun : Bool) (s : State) : State := { s with due := due, schedulerBegun := begun }

theorem flushRecords_withWork (due : List Work) (begun : Bool) (s : State) :
    flushRecords (withWork due begun s) = withWork due begun (flushRecords s) := by
  have hplaced (records : List Record) (u : State) :
      records.foldl (fun t r => pushEvent (r.result .flushed) t) (withWork due begun u)
        = withWork due begun (records.foldl (fun t r => pushEvent (r.result .flushed) t) u) := by
    induction records generalizing u with
    | nil => rfl
    | cons r records ih => exact ih (pushEvent (r.result .flushed) u)
  unfold flushRecords
  dsimp only
  rw [show (withWork due begun s).tx = s.tx from rfl, hplaced]
  rfl

theorem offerEvent_withWork (kind : EventKind) (due : List Work) (begun : Bool) (s : State) :
    offerEvent kind (withWork due begun s) = withWork due begun (offerEvent kind s) := by
  unfold offerEvent
  rw [apply_ite (withWork due begun)]
  rfl

/-- The completion of a detach looks at none of the work that is left (R163). -/
theorem completeDetach_withWork (due : List Work) (begun : Bool) (s : State) :
    completeDetach (withWork due begun s) = completeDetach s := by
  have hcleared : clearForDetach (flushRecords (withWork due begun s)) = withWork due begun (clearForDetach (flushRecords s)) := by
    rw [flushRecords_withWork]
    rfl
  unfold completeDetach
  dsimp only
  rw [hcleared, offerEvent_withWork]
  rfl

theorem takeWork_completion (s : State) : takeWork .completion s = completeDetach s :=
  completeDetach_withWork (s.due.erase .completion) (s.schedulerBegun || beginsScheduler .completion s) s

theorem completeDetach_records (s : State) : (completeDetach s).tx.records = [] := by
  simp [completeDetach, clearForDetach, flushRecords]

/-- With nothing of the Transmit Scheduler left to do, the command of the completion is the completion. -/
theorem exec_detachCompletion {s : State} (hmem : Work.completion ∈ s.due)
    (hready : s.schedulerBegun = false ∨ schedulerLeft s = []) : exec .detachCompletion s = .next (completeDetach s) := by
  have hwork : commandWork .completion s = completeDetach s := by
    rw [commandWork, if_pos hmem, beforeWork_of_ready fun _ => hready, takeWork_completion]
  exact congrArg Host.Outcome.next hwork

/-- Settles O28: the station state and the lock state give the answer; a station that is not on the link completes at once. -/
theorem detachRepliesByState : Obligations.DetachRepliesByState := by
  intro seq s hn
  have hanswered {status : Status} {u : State} (hstate : s.station.state = .attached ∨ s.station.state = .detaching)
      (h : requestDetach s = (status, [], u)) : exec (.detach seq []) s = .next (answered 0x85 seq status [] u) :=
    exec_answered (k := .detach) (params := []) (by decide) hn rfl (by rcases hstate with h | h <;> rw [h] <;> rfl) h
  refine ⟨fun hs hl => hanswered (.inl hs) ?_, fun hs => hanswered (.inr hs) (if_pos hs),
    fun hs hl => ⟨completeDetach s, hanswered (.inl hs) ?_, (completeDetach_fields s).1, ?_, completeDetach_records s, ?_⟩⟩
  · rw [requestDetach, if_neg (by simp [hs]), if_neg (by rcases hl with h | h | h <;> simp [h])]
  · rw [requestDetach, if_neg (by simp [hs]), if_pos hl]
  · rw [(completeDetach_fields s).2.1]
    rfl
  · refine (exec_detachCompletion ?_ ?_).trans (congrArg Host.Outcome.next (completeDetach_withWork [.completion] s.schedulerBegun s))
    · exact List.mem_cons_self
    · exact .inr rfl

end Sys2Proof.Machine
end

section
/-! What a boundary leaves to do, and how it is done (R15, R41, R63, R71, R87, R110, R161 to R163). -/
namespace Sys2Proof.Machine

open Sys2Proof.Claims Sys2Proof.Safety

/-! ## Items of work -/

/-- The command of an item does it if it is outstanding. -/
theorem exec_workCommand (w : Work) (s : State) : exec (workCommand w) s = .next (commandWork w s) := by cases w <;> rfl

theorem commandWork_of_mem {w : Work} {s : State} (h : w ∈ s.due) : commandWork w s = takeWork w (beforeWork w s) := if_pos h

/-- With more than one item left, settling does one that is ready and counts one draw (log entry 3). -/
theorem settleUpTo_draws {ready : State → List Work} {s : State} (h : 2 ≤ s.due.length) (hready : ready s ≠ []) :
    ∃ w ∈ ready s, settleUpTo ready s.due.length s
      = settleUpTo ready (s.due.length - 1) (takeWork w { s with choices := s.choices + 1 }) := by
  obtain ⟨fuel, hfuel⟩ : ∃ fuel, s.due.length = fuel + 1 := ⟨s.due.length - 1, by omega⟩
  obtain ⟨w, rest, hr⟩ := List.exists_cons_of_ne_nil hready
  refine ⟨drawWork w rest s, hr ▸ drawWork_mem w rest s, ?_⟩
  conv_lhs => rw [hfuel, settleUpTo]
  simp only [hr]
  rw [if_neg (by omega), hfuel, Nat.add_sub_cancel]

/-- With nothing left, the fuel does not matter. -/
theorem settleUpTo_workReady_of_due_nil {s : State} (h : s.due = []) (fuel : Nat) : settleUpTo workReady fuel s = s :=
  settleUpTo_of_nil (workReady_eq_nil.2 h) fuel

/-- Settling does one item as its own command does it and then the rest (R63; log entries 2 and 3). -/
theorem settle_draws {s : State} (h : 2 ≤ s.due.length) :
    ∃ w ∈ s.due, settle s = settle (commandWork w { s with choices := s.choices + 1 }) := by
  have hne : s.due ≠ [] := fun e => by simp [e] at h
  obtain ⟨w, hw, hsettle⟩ := settleUpTo_draws h (mt workReady_eq_nil.1 hne)
  have hmem := mem_due_of_mem_workReady hw
  have hbefore : beforeWork w { s with choices := s.choices + 1 } = { s with choices := s.choices + 1 } :=
    beforeWork_of_ready fun e => completion_mem_workReady (s := { s with choices := s.choices + 1 }) (e ▸ hw)
  refine ⟨w, hmem, ?_⟩
  rw [commandWork_of_mem (by exact hmem), hbefore, settle, settle, hsettle]
  by_cases hc : w = .completion
  · have hdue : (takeWork w { s with choices := s.choices + 1 }).due = [] := by
      rw [hc, takeWork_completion]
      exact (completeDetach_fields _).2.2.2.2.2.1
    rw [settleUpTo_workReady_of_due_nil hdue, settleUpTo_workReady_of_due_nil hdue]
  · rw [takeWork_due hc]
    exact congrArg (fun fuel => settleUpTo workReady fuel _) (List.length_erase_of_mem hmem).symm

/-- A request other than ATTACH, DETACH and MAP_WITHDRAW leaves the work that a boundary left. -/
theorem performRequest_work {kind : RequestKind} (h : kind ≠ .attach ∧ kind ≠ .detach ∧ kind ≠ .mapWithdraw) (params : List Byte)
    (s : State) : (performRequest kind params s).2.2.due = s.due
      ∧ (performRequest kind params s).2.2.schedulerBegun = s.schedulerBegun := by
  cases kind with
  | attach => exact absurd rfl h.1
  | detach => exact absurd rfl h.2.1
  | mapWithdraw => exact absurd rfl h.2.2
  | ident | status | mapRead | peerRead | reset => exact ⟨rfl, rfl⟩
  | configure =>
    simp only [performRequest, requestConfigure, refuse]
    (repeat' split) <;> simp
  | mapStage =>
    simp only [performRequest, requestMapStage, refuse]
    (repeat' split) <;> simp
  | mapCommit =>
    simp only [performRequest, requestMapCommit, commitAtOnce, commitPending, refuse]
    (repeat' split) <;> simp
  | send =>
    simp only [performRequest, requestSend, acceptSend, refuse]
    (repeat' split) <;> simp
  | cancel =>
    simp only [performRequest, requestCancel, cancelRecord, refuse]
    (repeat' split) <;> simp
  | queryTicket =>
    simp only [performRequest, requestQuery, refuse]
    (repeat' split) <;> simp
  | fetchMessage =>
    simp only [performRequest, requestFetchMessage, refuse]
    (repeat' split) <;> simp
  | fetchEvent =>
    simp only [performRequest, requestFetchEvent]
    (repeat' split) <;> simp
  | counters =>
    simp only [performRequest, requestCounters]
    (repeat' split) <;> simp

theorem code_of_requestKind? {code : Byte} {kind : RequestKind} (h : requestKind? code = some kind) : kind.code = code := by
  simpa using List.find?_some h

/-- Settles O3: what is left is settled before an event of the link, one drawn item after another, and by no request but three. -/
theorem boundaryWorkComesFirst : Obligations.BoundaryWorkComesFirst := by
  refine ⟨fun c s hc => ⟨settle_due s, ?_⟩, fun w s hw => ?_, fun w s hw => ?_, fun s hlen => ?_, fun c r s t hr hn hkind ht => ?_⟩
  · cases c with
    | masterFrameBoundary => simp only [exec, execMasterFrameBoundary, settle_settle]
    | markObserved count => simp only [exec, execMarkObserved, settle_settle]
    | missedMark => simp only [exec, execMissedMark, settle_settle]
    | clockLoss => simp only [exec, execClockLoss, settle_settle]
    | slotStart slot => simp only [exec, execSlotStart, settle_settle]
    | passEnd => simp only [exec, execPassEnd, settle_settle]
    | cellReceived image => simp only [exec, execCellReceived, settle_settle]
    | _ => exact absurd hc Bool.false_ne_true
  · rw [exec_workCommand, commandWork_of_not_mem hw]
  · rw [exec_workCommand, settle_of_due_single hw]
  · obtain ⟨w, hw, hsettle⟩ := settle_draws hlen
    exact ⟨w, hw, _, exec_workCommand w _, hsettle⟩
  · obtain rfl := Host.Outcome.next.inj ((exec_of_executesNow hr hn).symm.trans ht)
    rcases judgeRequest_cases r { s with host.receive := .idle } with ⟨status, e⟩ | ⟨kind, hk, -, -, e⟩
    · simp only [executeRequest, e]
      exact ⟨rfl, rfl⟩
    · have hcode := code_of_requestKind? hk
      have hothers : kind ≠ .attach ∧ kind ≠ .detach ∧ kind ≠ .mapWithdraw := by
        refine ⟨?_, ?_, ?_⟩ <;> (rintro rfl; exact hkind (hcode ▸ by decide))
      simp only [executeRequest, e]
      exact performRequest_work hothers r.params { s with host.receive := .idle }

/-! ## Lifetimes, ack timers and contexts -/

theorem exec_of_work {w : Work} {s : State} (hw : w ∈ s.due) (hne : w ≠ .completion) : exec (workCommand w) s
    = .next (doWork w { s with due := s.due.erase w, schedulerBegun := s.schedulerBegun || beginsScheduler w s }) := by
  rw [exec_workCommand, commandWork_of_mem hw, beforeWork_of_ne hne]
  rfl

/-- R71: the lifetime of a QUEUED record ran out. -/
theorem expireRecord_of_queued {k : Ticket} {r : Record} {s : State} (hr : named k r s) (hq : r.state = .queued) :
    expireRecord k s = ended r .expired s := by
  have hfound : findRecord k s = some r := hr
  simp only [expireRecord, hfound, if_pos hq, finishRecord_eq_ended]

/-- R87: the ack timer of an AWAITING record ran out. -/
theorem judgeTimer_of_awaiting {k : Ticket} {r : Record} {s : State} (hr : named k r s) (ha : r.state = .awaiting) :
    judgeTimer k s = if r.attempts ≤ s.station.config.retryLimit
      then replaced { r with state := .retry, ackTimer := 0 } { s with tx.retryOrder := s.tx.retryOrder ++ [k] }
      else ended r (if r.pendingSet = r.dest then .failed else .partly) s := by
  have hfound : findRecord k s = some r := hr
  have hwaits : ¬r.state ≠ .awaiting := not_not_intro ha
  simp only [judgeTimer, hfound, if_neg hwaits, finishRecord_eq_ended, putRecord_eq_replaced]
  rfl

/-- R110: a context 16 frames without a cell. -/
theorem timeOutContext_of_gone {n : Node} {s : State} (h : gone16 (s.rx.contexts.get n)) : timeOutContext n s
    = if (s.rx.contexts.get n).isAssembling then { abandoned n s with counters.breaks := up s.counters.breaks } else abandoned n s := by
  simp only [timeOutContext, if_pos ((timedOut_iff_gone16 _).2 h), abandonContext_eq_abandoned, countBreak_eq]
  rfl

/-- Settles O53: each item, on the state in which it is off the list. -/
theorem boundaryTimersRunOut : Obligations.BoundaryTimersRunOut := by
  have hscheduler {w : Work} (hw : w.ofScheduler = true) (s : State) : beginsScheduler w s = decide (Work.completion ∈ s.due) := by
    rw [beginsScheduler, hw, Bool.true_and, List.contains_eq_mem]
  refine ⟨fun k r s hw hr hq => ?_, fun k r s hw hr ha => ?_, fun n s hw hgone => ?_⟩
  · refine (exec_of_work (w := .lifetime k) hw (by simp)).trans ?_
    rw [hscheduler rfl, doWork, expireRecord_of_queued (by exact hr) hq]
  · have hexec := exec_of_work (w := .ackTimer k) hw (by simp)
    rw [hscheduler rfl, doWork, judgeTimer_of_awaiting (r := r) (by exact hr) ha] at hexec
    refine ⟨fun hlimit => ?_, fun hlimit hset => ?_, fun hlimit hset => ?_⟩
    · rw [if_pos hlimit] at hexec
      exact hexec
    · rw [if_neg (Nat.not_le.2 hlimit), if_pos hset] at hexec
      exact hexec
    · rw [if_neg (Nat.not_le.2 hlimit), if_neg hset] at hexec
      exact hexec
  · have hexec := exec_of_work (w := .reassembly n) hw (by simp)
    have hother : (s.schedulerBegun || beginsScheduler (.reassembly n) s) = s.schedulerBegun := Bool.or_false _
    rw [hother, doWork, timeOutContext_of_gone (by exact hgone)] at hexec
    refine ⟨fun a hc => ?_, fun frames hc => ?_⟩
    · rw [if_pos (by simp [hc, Context.isAssembling])] at hexec
      exact hexec
    · rw [if_neg (by simp [hc, Context.isAssembling])] at hexec
      exact hexec

/-! ## The switch of the map -/

theorem offered_frame (k : EventKind) (s : State) :
    (offered k s).phase = s.phase ∧ (offered k s).station = s.station ∧ (offered k s).link = s.link ∧ (offered k s).map = s.map
      ∧ (offered k s).tx = s.tx ∧ (offered k s).rx = s.rx ∧ (offered k s).host = s.host ∧ (offered k s).due = s.due := by
  rw [← offerEvent_eq_offered]
  simp

/-- `s` with another Map Unit. -/
def withMap (map : MapUnit) (s : State) : State := { s with map := map }

theorem offerEvent_withMap (kind : EventKind) (map : MapUnit) (s : State) :
    offerEvent kind (withMap map s) = withMap map (offerEvent kind s) := by
  unfold offerEvent
  rw [apply_ite (withMap map)]
  rfl

/-- The Map Unit with the pending map active, before the rest of the boundary work (R41, R48). -/
def switchedMap (p : PendingMap) (role : Role) (map : MapUnit) : MapUnit :=
  { map with active := some p.map, pendingMap := none, outcome := if role = .master then .applied else map.outcome }

theorem switchMap_of_pending {p : PendingMap} {s : State} (hp : s.map.pendingMap = some p) :
    switchMap s = closeMapWork (withMap (switchedMap p s.station.config.role s.map) (offered (.mapApplied p.map.generation p.effective) s)) := by
  have hswitched : (if s.station.config.role = .master then
        { s with map.active := some p.map, map.pendingMap := none, map.outcome := .applied }
      else { s with map.active := some p.map, map.pendingMap := none }) = withMap (switchedMap p s.station.config.role s.map) s := by
    cases hrole : s.station.config.role <;> simp [withMap, switchedMap]
  rw [← offerEvent_eq_offered, ← offerEvent_withMap, ← hswitched, switchMap, hp]

/-- Settles O54: the pending map is active, and then the rest of the boundary work is done with it. -/
theorem mapSwitchesAtItsEffectiveFrame : Obligations.MapSwitchesAtItsEffectiveFrame := by
  intro s p hw hp
  have hother : (s.schedulerBegun || beginsScheduler .mapSwitch s) = s.schedulerBegun := Bool.or_false _
  have hexec := exec_of_work (w := .mapSwitch) hw (by simp)
  rw [hother, doWork, switchMap_of_pending (by exact hp)] at hexec
  refine ⟨_, hexec, ?_⟩
  obtain ⟨-, hstation, hlink, -⟩ := offered_frame (.mapApplied p.map.generation p.effective) { s with due := s.due.erase .mapSwitch }
  generalize offered (.mapApplied p.map.generation p.effective) { s with due := s.due.erase .mapSwitch } = u at *
  have hrole : u.station.config.role = s.station.config.role := by rw [hstation]
  cases hr : s.station.config.role with
  | master =>
    have hcontent := contentFor_controlContent (s := setFrameGeneration (withMap (switchedMap p .master s.map) u)) (m := p.map) rfl
    rw [show (setFrameGeneration (withMap (switchedMap p .master s.map) u)).link = s.link from hlink,
      show (setFrameGeneration (withMap (switchedMap p .master s.map) u)).station = s.station from hstation] at hcontent
    rw [closeMapWork_master (by exact hrole.trans hr)]
    exact ⟨rfl, fun h => by simp at h, fun _ => ⟨_, rfl, hcontent⟩⟩
  | member =>
    rw [closeMapWork_member (by exact hrole.trans hr)]
    exact ⟨rfl, fun _ => rfl, fun h => by simp at h⟩

/-! ## The boundaries of a master -/

theorem exec_masterFrameBoundary {s : State} (hdue : s.due = []) (hlock : s.link.lock = .driving) :
    exec .masterFrameBoundary s = .next (masterBoundary s) := by
  simp only [exec, execMasterFrameBoundary, settle_of_due_nil hdue, if_pos hlock]

theorem endCell_of_none {s : State} (h : s.tx.cell = none) : endCell s = s := by
  rw [endCell, h]

/-- At a boundary without a switch a master composes the content of the frame that begins (R42). -/
theorem announceBoundary_content {s : State} (hrole : s.station.config.role = .master) (hswitch : switchesNow s = false) {m : SlotMap}
    (hm : s.map.active = some m) : ∃ bytes, (announceBoundary true s).map.content = some bytes
      ∧ contentFor s.link.frame s.station.config.rateCode m s.map.pendingMap bytes := by
  have hclose : announceBoundary true s = closeMapWork
      { s with
        tx.records := s.tx.records.map Record.tick
        rx.contexts := Vector.ofFn fun n => (s.rx.contexts.get n).tick
        due := (announceBoundary true s).due
        schedulerBegun := false } := by
    rw [announceBoundary_due]
    unfold announceBoundary
    dsimp only
    rw [hswitch]
    rfl
  rw [hclose, closeMapWork_master (by exact hrole)]
  exact ⟨_, rfl, contentFor_controlContent (by exact hm)⟩

/-- `s` as a station that has joined the link, before its Link Timing Unit starts (R39, R159). -/
def joined (s : State) : State := { s with station.state := .attached, map.outcome := .nothing }

theorem requestAttach_member {s : State} (h : s.station.config.role = .member) : requestAttach s = (.ok, [], searching (joined s)) := by
  simp only [requestAttach, h]
  rfl

theorem requestAttach_master {s : State} (h : s.station.config.role = .master) : requestAttach s = (.ok, [], startDriving (joined s)) := by
  simp only [requestAttach, h]
  rfl

theorem switchesNow_of_none {s : State} (h : s.map.pendingMap = none) : switchesNow s = false := by
  rw [switchesNow, h]

/-- Settles O27: a master's first boundary is announced in the step of ATTACH (R4, R159; log entry 15). -/
theorem attachJoinsTheLink : Obligations.AttachJoinsTheLink := by
  intro seq s hn hstate
  have hanswered (u : State) (h : requestAttach s = (.ok, [], u)) : exec (.attach seq []) s = .next (answered 0x84 seq .ok [] u) :=
    exec_answered (k := .attach) (params := []) (by decide) hn rfl (by rw [hstate]; rfl) h
  refine ⟨fun hrole => hanswered _ (requestAttach_member hrole), fun hrole => ⟨startDriving (joined s),
    hanswered _ (requestAttach_master hrole), announceBoundary_announces _, fun m hm hp => ?_⟩⟩
  obtain ⟨bytes, hbytes, hcontent⟩ := announceBoundary_content (m := m)
    (s := { beginCount (joined s) with
      link.lock := .driving, link.frame := 0, link.missed := 0, link.permission := true, link.decisionDue := false })
    hrole (switchesNow_of_none hp) hm
  exact ⟨bytes, hbytes, hp ▸ hcontent⟩

/-! ## The end of a master's frames -/

theorem closeMapWork_eq_withMap (s : State) : closeMapWork s = withMap (closeMapWork s).map s := by
  cases h : s.station.config.role with
  | master =>
    rw [closeMapWork_master h]
    rfl
  | member =>
    rw [closeMapWork_member h]
    rfl

/-- A boundary that begins no frame does what one without a pending map does, the Map Unit apart. -/
theorem announceBoundary_true_eq (s : State) :
    ∃ map, announceBoundary true (withMap { s.map with pendingMap := none } s) = withMap map (announceBoundary false s) := by
  exact ⟨(announceBoundary true (withMap { s.map with pendingMap := none } s)).map, closeMapWork_eq_withMap _⟩

/-- What a boundary that begins no frame does to the blocks (R6, R15, R163). -/
theorem announceBoundary_ticks (s : State) : ticksAt s (announceBoundary false s) ∧ Work.mapSwitch ∉ (announceBoundary false s).due
    ∧ (announceBoundary false s).map = s.map := by
  obtain ⟨map, h⟩ := announceBoundary_true_eq s
  obtain ⟨hticks, hswitch, -⟩ := announceBoundary_announces (withMap { s.map with pendingMap := none } s)
  rw [h] at hticks hswitch
  exact ⟨hticks, fun hw => by simpa [withMap] using hswitch.1 hw, rfl⟩

/-- Settles O32: a boundary that begins a frame is announced as one; the boundary that ends the last only counts. -/
theorem masterBoundaryBeginsOrEndsTheFrames : Obligations.MasterBoundaryBeginsOrEndsTheFrames := by
  intro s hdue hlock hcell
  have hexec : exec .masterFrameBoundary s = .next (masterBoundary s) := exec_masterFrameBoundary hdue hlock
  rw [masterBoundary, endCell_of_none hcell] at hexec
  refine ⟨fun hstate => ⟨_, hexec, ?_⟩, fun hstate => ⟨_, hexec, ?_⟩⟩
  · rw [if_neg hstate]
    exact announceBoundary_announces _
  · rw [if_pos hstate]
    obtain ⟨hticks, hswitch, hmap⟩ := announceBoundary_ticks s
    obtain ⟨-, -, -, -, -, -, hcompletion, hbegun, hlink, hstation, -⟩ := id hticks
    refine ⟨hticks, hswitch, hmap, _, exec_detachCompletion (hcompletion.2 hstate) (.inl hbegun), ?_⟩
    obtain ⟨hstationOff, hlinkOff, -, -, -, hdueOff, -⟩ := completeDetach_fields (announceBoundary false s)
    rw [hstationOff, hlinkOff, hdueOff, hstation, hlink]
    exact ⟨rfl, rfl, rfl, rfl⟩

/-- A boundary that lists no switch finds no map due. -/
theorem switchesNow_eq_false {s : State} (h : Work.mapSwitch ∉ (announceBoundary true s).due) : switchesNow s = false := by
  rw [← Bool.not_eq_true]
  exact fun hs => h ((mem_announced_due _ s).2 (.inr (.inr (.inl ⟨rfl, hs⟩))))

/-- Settles O33: the content is composed when the boundary's work on the maps is done, in its step or by the switch. -/
theorem controlContentIsComposedAtTheBoundary : Obligations.ControlContentIsComposedAtTheBoundary := by
  have hbegins {s : State} (hdue : s.due = []) (hlock : s.link.lock = .driving) (hstate : s.station.state = .attached) :
      exec .masterFrameBoundary s = .next (announceBoundary true { beginCount (endCell s) with link.frame := (endCell s).link.frame + 1 }) := by
    rw [exec_masterFrameBoundary hdue hlock, masterBoundary]
    exact congrArg Host.Outcome.next (if_neg (by simp [hstate]))
  refine ⟨fun s t m hdue hlock hstate hrole hm ht hswitch => ?_, fun s p hdue hlock hcell hstate hrole hp heffective => ?_⟩
  · obtain rfl := Host.Outcome.next.inj ((hbegins hdue hlock hstate).symm.trans ht)
    obtain ⟨bytes, hbytes, hcontent⟩ := announceBoundary_content (m := m)
      (s := { beginCount (endCell s) with link.frame := (endCell s).link.frame + 1 })
      (by simpa using hrole) (switchesNow_eq_false hswitch) (by simpa using hm)
    refine ⟨bytes, hbytes, ?_⟩
    simpa using hcontent
  · have hexec := hbegins hdue hlock hstate
    rw [endCell_of_none hcell] at hexec
    obtain ⟨⟨-, -, -, -, -, -, -, -, hlink, hstation, -⟩, hlisted, hmap, -⟩ :=
      announceBoundary_announces { beginCount s with link.frame := s.link.frame + 1 }
    generalize announceBoundary true { beginCount s with link.frame := s.link.frame + 1 } = t at *
    have hmem : Work.mapSwitch ∈ t.due := hlisted.2 ⟨p, hp, heffective⟩
    rw [if_pos hmem] at hmap
    have hrole' : t.station.config.role = .master := hstation ▸ hrole
    obtain ⟨u, hu, hmaps, -, hmaster⟩ := mapSwitchesAtItsEffectiveFrame t p hmem (hmap ▸ hp)
    obtain ⟨bytes, hbytes, hcontent⟩ := hmaster hrole'
    have hframe : t.link.frame = p.effective := (congrArg LinkTiming.frame hlink).trans heffective.symm
    have hrate : t.station.config.rateCode = s.station.config.rateCode := congrArg (fun x => x.config.rateCode) hstation
    rw [hframe, hrate] at hcontent
    exact ⟨t, u, bytes, hexec, hmem, hmap, hu, congrArg (fun x => x.map.active) hmaps, hbytes, hcontent⟩

end Sys2Proof.Machine
end

section
/-! The completion of a detach (R162, R163). -/
namespace Sys2Proof.Machine

open Sys2Proof.Claims Sys2Proof.Safety

/-- The records' FLUSHED results, in the order of acceptance (R162). -/
def allFlushed (s : State) : State := s.tx.records.foldl (fun u r => placed (resultOf r .flushed) u) s

theorem allFlushed_frame (s : State) : (allFlushed s).phase = s.phase ∧ (allFlushed s).station = s.station ∧ (allFlushed s).link = s.link
    ∧ (allFlushed s).map = s.map ∧ (allFlushed s).tx = s.tx ∧ (allFlushed s).rx = s.rx ∧ (allFlushed s).host = s.host
    ∧ (allFlushed s).counters = s.counters := by
  obtain ⟨hphase, hstation, hlink, hmap, htx, hrx, hhost, hcounters, -⟩ := foldl_pushEvent_frame s.tx.records s
  exact ⟨hphase, hstation, hlink, hmap, htx, hrx, hhost, hcounters⟩

/-- A change of the events and their loss counter that an offer makes rests on those and the frame number. -/
theorem offered_counters_congr (k : EventKind) {s t : State} (he : s.events = t.events) (hc : s.counters = t.counters) :
    (offered k s).counters = (offered k t).counters := by
  unfold offered placed
  rw [he, hc]
  split <;> rfl

/-- What the completion of a detach leaves in each block (R162). -/
theorem completeDetach_blocks (s : State) :
    (completeDetach s).tx = { s.tx with
        records := [], retryOrder := [], cell := none
        freeBlocks := s.tx.freeBlocks + (s.tx.records.map fun r => blocks r.payload.length).sum }
      ∧ (completeDetach s).rx = { s.rx with
        owed := [], controlRecord := none, receiving := none, contexts := Vector.replicate 12 .idle
        freeBlocks := s.rx.freeBlocks + (s.rx.contexts.toList.map held).sum }
      ∧ (completeDetach s).events = (offered (.detached s.tx.records.length) (allFlushed s)).events
      ∧ (completeDetach s).counters = (offered (.detached s.tx.records.length) (allFlushed s)).counters
      ∧ (completeDetach s).host = s.host ∧ (completeDetach s).phase = s.phase := by
  obtain ⟨hphase, -, hlink, -, htx, hrx, hhost, hcounters⟩ := allFlushed_frame s
  have htx'' : (clearForDetach (flushRecords s)).tx = { (allFlushed s).tx with
      records := [], retryOrder := [], cell := none
      freeBlocks := s.tx.freeBlocks + (s.tx.records.map Record.blocks).sum } := rfl
  have hrx'' : (clearForDetach (flushRecords s)).rx = { (allFlushed s).rx with
      owed := [], controlRecord := none, receiving := none, contexts := Vector.replicate 12 .idle
      freeBlocks := (allFlushed s).rx.freeBlocks + ((allFlushed s).rx.contexts.toList.map Context.blocks).sum } := rfl
  have hblocks : Record.blocks = fun r => blocks r.payload.length := funext fun r => blocksFor_eq_blocks r.payload.length
  have hevents : (clearForDetach (flushRecords s)).events = (allFlushed s).events := rfl
  have hframe : (clearForDetach (flushRecords s)).link.frame = (allFlushed s).link.frame := rfl
  have hcount : (clearForDetach (flushRecords s)).counters = (allFlushed s).counters := rfl
  obtain ⟨hphase', -, -, -, htx', hrx', hhost', -⟩ := offered_frame (.detached s.tx.records.length) (clearForDetach (flushRecords s))
  rw [completeDetach, ← hblocks, ← funext context_blocks_eq_held]
  dsimp only
  rw [offerEvent_eq_offered, htx', hrx', hhost', hphase', offered_events_congr _ hevents hframe,
    offered_counters_congr _ hevents hcount]
  refine ⟨?_, ?_, rfl, rfl, hhost, hphase⟩
  · rw [htx'', htx]
  · rw [hrx'', hrx]

/-- The Map Unit after the completion of a detach (R53). -/
theorem detachedMap_blocks (m : MapUnit) :
    (∀ role, (detachedMap role m).staged = m.staged)
      ∧ ((detachedMap .member m).active = none ∧ (detachedMap .member m).frameGeneration = none
          ∧ (detachedMap .member m).masterNode = none ∧ (detachedMap .member m).masterRate = none)
      ∧ (detachedMap .master m).active = m.active ∧ (detachedMap .master m).frameGeneration = m.active.map (fun a => a.generation)
          ∧ (detachedMap .master m).masterNode = m.masterNode ∧ (detachedMap .master m).masterRate = m.masterRate := by
  unfold detachedMap
  cases m.pendingMap with
  | none => exact ⟨fun role => by cases role <;> rfl, ⟨rfl, rfl, rfl, rfl⟩, rfl, rfl, rfl, rfl⟩
  | some p => exact ⟨fun role => by cases role <;> rfl, ⟨rfl, rfl, rfl, rfl⟩, rfl, rfl, rfl, rfl⟩

theorem ofScheduler_iff (w : Work) : w.ofScheduler = true ↔ ofTransmitScheduler w := by
  cases w <;> simp [Work.ofScheduler, ofTransmitScheduler]

/-- Once the Transmit Scheduler has begun, a completion does one more of its items first (R163; log entries 2 and 3). -/
theorem completion_after_scheduler {s : State} (hc : Work.completion ∈ s.due) (hbegun : s.schedulerBegun = true)
    (hleft : ∃ w ∈ s.due, ofTransmitScheduler w) :
    ∃ w ∈ s.due, ofTransmitScheduler w ∧ ∃ u, exec (workCommand w) { s with choices := s.choices + 1 } = .next u
      ∧ Work.completion ∈ u.due ∧ u.schedulerBegun = true ∧ u.due = s.due.erase w
      ∧ exec .detachCompletion s = exec .detachCompletion u := by
  obtain ⟨v, hv, hvs⟩ := hleft
  have hne : schedulerLeft s ≠ [] := List.ne_nil_of_mem (List.mem_filter.2 ⟨hv, (ofScheduler_iff v).2 hvs⟩)
  have hvc : v ≠ .completion := by
    rintro rfl
    simp [ofTransmitScheduler] at hvs
  have htwo : 2 ≤ s.due.length := by
    have := List.length_pos_of_mem ((List.mem_erase_of_ne hvc.symm).2 hc)
    have := List.length_erase_of_mem hv
    omega
  obtain ⟨w, hw, hfinish⟩ := settleUpTo_draws htwo hne
  have hmem := mem_due_of_mem_schedulerLeft hw
  have hws : ofTransmitScheduler w := (ofScheduler_iff w).1 (List.mem_filter.1 hw).2
  have hwc : w ≠ .completion := by
    rintro rfl
    simp [ofTransmitScheduler] at hws
  have hu : exec (workCommand w) { s with choices := s.choices + 1 } = .next (takeWork w { s with choices := s.choices + 1 }) :=
    exec_of_work hmem hwc
  have hdue : (takeWork w { s with choices := s.choices + 1 }).due = s.due.erase w := takeWork_due hwc _
  have hbegun' : (takeWork w { s with choices := s.choices + 1 }).schedulerBegun = true := by
    have hws' : w ≠ .mapSwitch := by
      rintro rfl
      simp [ofTransmitScheduler] at hws
    simp [takeWork, doWork_blocks_frame hwc hws', hbegun]
  have hstays : Work.completion ∈ (takeWork w { s with choices := s.choices + 1 }).due := by
    rw [hdue]
    exact (List.mem_erase_of_ne hwc.symm).2 hc
  refine ⟨w, hmem, hws, _, hu, hstays, hbegun', hdue, ?_⟩
  have hcompletion {t : State} (hmem : Work.completion ∈ t.due) (hb : t.schedulerBegun = true) :
      exec .detachCompletion t = .next (takeWork .completion (settleUpTo schedulerLeft t.due.length t)) := by
    refine (exec_workCommand .completion t).trans ?_
    rw [commandWork_of_mem hmem, beforeWork, if_pos ⟨rfl, hb⟩]
    rfl
  rw [hcompletion hc hbegun, hcompletion hstays hbegun', hfinish, hdue, List.length_erase_of_mem hmem]

/-- Settles O55: begun work is finished item by item, and then every block is cleared. -/
theorem detachCompletionInItsStages : Obligations.DetachCompletionInItsStages := by
  refine ⟨fun s hc hbegun hleft => completion_after_scheduler hc hbegun hleft, fun s hc hready => ?_⟩
  have hleft : s.schedulerBegun = false ∨ schedulerLeft s = [] := by
    cases hb : s.schedulerBegun with
    | false => exact .inl rfl
    | true => exact .inr (List.filter_eq_nil_iff.2 fun w hw h => hready hb w hw ((ofScheduler_iff w).1 h))
  obtain ⟨hstation, hlink, hmap, -, -, hdue, hbegun⟩ := completeDetach_fields s
  obtain ⟨htx, hrx, hevents, hcounters, hhost, hphase⟩ := completeDetach_blocks s
  obtain ⟨hpending, houtcome⟩ := detachedMap_fields s.station.config.role s.map
  obtain ⟨hstaged, hmember, hmaster⟩ := detachedMap_blocks s.map
  refine ⟨_, exec_detachCompletion hc hleft, hstation, hdue, hbegun, htx, fun n => ?_, ?_, hlink, ?_, ?_, ?_, fun hrole => ?_,
    fun hrole => ?_, ⟨hevents, hcounters⟩, hhost, hphase⟩
  · rw [hrx]
    simp [Vector.get_eq_getElem]
  · rw [hrx]
  · rw [hmap, hpending]
  · rw [hmap, hstaged]
  · rw [hmap, houtcome]
  · rw [hmap, hrole]
    exact hmember
  · rw [hmap, hrole]
    exact hmaster

end Sys2Proof.Machine
end

section
/-! Time that has passed, the end of a pass, and the marks that a member counts (R8 to R11, R14, R17, R69, R86; log entry 5). -/
namespace Sys2Proof.Machine

open Sys2Proof.Claims Sys2Proof.Safety

/-! ## The end of a cell -/

theorem endCell_endCell (s : State) : endCell (endCell s) = endCell s := endCell_of_none (endCell_cell s)

theorem endCell_of_no_pass {s : State} {cell : SentCell} (hcell : s.tx.cell = some cell) (hends : cell.endsPassOf = none) :
    endCell s = { s with tx.cell := none } := by
  simp only [endCell, hcell, hends]

theorem endCell_of_pass {s : State} {cell : SentCell} {r : Record} (hcell : s.tx.cell = some cell)
    (hends : cell.endsPassOf = some r.ticket) (hr : named r.ticket r s) : endCell s = endPass r { s with tx.cell := none } := by
  have hfound : findRecord r.ticket { s with tx.cell := none } = some r := hr
  simp only [endCell, hcell, hends, hfound]

/-- `s` with the count of its frame at another place. -/
def withPosition (position : Option Nat) (s : State) : State := { s with link.position := position }

theorem endPass_withPosition (r : Record) (position : Option Nat) (s : State) :
    endPass r (withPosition position s) = withPosition position (endPass r s) := by
  unfold endPass
  dsimp only
  rw [apply_ite (withPosition position), apply_ite (withPosition position), apply_ite (withPosition position)]
  rfl

/-- What the end of a cell does rests on the frame's number, not on its count. -/
theorem endCell_withPosition (position : Option Nat) (s : State) :
    endCell (withPosition position s) = withPosition position (endCell s) := by
  rcases hc : s.tx.cell with _ | cell
  · rw [endCell_of_none hc, endCell_of_none (by exact hc)]
  · rcases he : cell.endsPassOf with _ | t
    · rw [endCell_of_no_pass hc he, endCell_of_no_pass (s := withPosition position s) hc he]
      rfl
    · have hfind : findRecord t { withPosition position s with tx.cell := none } = findRecord t { s with tx.cell := none } := rfl
      have hcell : (withPosition position s).tx.cell = some cell := hc
      simp only [endCell, hcell, hc, he, hfind]
      rcases findRecord t { s with tx.cell := none } with _ | r
      · rfl
      · exact endPass_withPosition r position { s with tx.cell := none }

theorem exec_passEnd {s : State} {cell : SentCell} (hdue : s.due = []) (hcell : s.tx.cell = some cell) :
    exec .passEnd s = .next (if cell.endsPassOf.isSome then endCell (withPosition (some (256 * cell.slot.val + 240)) s) else s) := by
  simp only [exec, execPassEnd, settle_of_due_nil hdue, hcell]
  split <;> rfl

/-- Settles O41: the end of the cell is the end of its record's pass. -/
theorem passEndIsJudged : Obligations.PassEndIsJudged := by
  intro s cell r hdue hcell
  have hexec := exec_passEnd hdue hcell
  refine ⟨fun hends => ?_, fun hends hr => ?_⟩
  · rw [hexec, hends]
    rfl
  · rw [if_pos (by rw [hends]; rfl), endCell_of_pass (by exact hcell) hends (by exact hr)] at hexec
    rw [hexec]
    rcases endPass_cases r { withPosition (some (256 * cell.slot.val + 240)) s with tx.cell := none } with
      ⟨h1, e⟩ | ⟨h1, h2, e⟩ | ⟨h1, h2, h3, e⟩ | ⟨h1, h2, h3, e⟩ <;> rw [e]
    · exact ⟨fun _ => rfl, fun h => by simp [h1] at h, fun h => by simp [h1] at h, fun h => by simp [h1] at h⟩
    · exact ⟨fun h => by simp [h1] at h, fun _ _ => rfl, fun _ h => absurd h2 h, fun _ h => absurd h2 h⟩
    · exact ⟨fun h => by simp [h1] at h, fun _ h => absurd h h2, fun _ _ _ => rfl, fun _ _ h => by simp [h3] at h⟩
    · exact ⟨fun h => by simp [h1] at h, fun _ h => absurd h h2, fun _ _ h => by simp [h3] at h, fun _ _ _ => rfl⟩

/-! ## The commands of the link with no work left -/

theorem exec_markObserved {s : State} (hdue : s.due = []) (count : Fin 4097) :
    exec (.markObserved count) s = .next (observeMark count.val s) := by
  simp only [exec, execMarkObserved, settle_of_due_nil hdue]

theorem exec_missedMark {s : State} (hdue : s.due = []) : exec .missedMark s = .next (missMark s) := by
  simp only [exec, execMissedMark, settle_of_due_nil hdue]

theorem exec_clockLoss {s : State} (hdue : s.due = []) : exec .clockLoss s = .next (loseClock s) := by
  simp only [exec, execClockLoss, settle_of_due_nil hdue]

theorem exec_slotStart {s : State} {slot : Slot} (hdue : s.due = []) (hstart : canStart slot s = true) :
    exec (.slotStart slot) s = .next (startSlot slot s) := by
  simp only [exec, execSlotStart, settle_of_due_nil hdue, if_pos hstart]

theorem canStart_iff (slot : Slot) (s : State) :
    canStart slot s = true ↔ announcesSlots s.link.lock = true ∧ s.link.nextSlot ≤ slot.val := by
  rw [canStart, Bool.and_eq_true, decide_eq_true_iff]

/-! ## Time that has passed -/

/-- By the end of the frame the cell has ended and the permission decision has been made (R3, R17). -/
theorem passTime_eq (s : State) : passTime 4096 s = decidePermission (endCell s) := by
  have hended : (if cellEndedBy 4096 s then endCell s else s) = endCell s := by
    split
    · rfl
    · next he =>
      rcases hc : s.tx.cell with _ | c
      · exact (endCell_of_none hc).symm
      · have := c.slot.isLt
        have hafter : ¬ 256 * c.slot.val + 240 ≤ 4096 := by
          simpa [cellEndedBy, hc, Config.periodsPerSlot, Config.cellBits] using he
        omega
  unfold passTime
  dsimp only
  rw [hended]
  rfl

theorem decidePermission_of_decided {s : State} (h : s.link.decisionDue = false) : decidePermission s = s := by
  rw [decidePermission, h]
  rfl

theorem decidePermission_twice (s : State) : decidePermission (decidePermission s) = decidePermission s :=
  decidePermission_of_decided (by rw [decidePermission_link])

/-- The slot starts of a state rest on the state in which the cell has ended and, past slot 0, the permission is decided. -/
theorem openSlot_congr {slot : Slot} {s t : State} (h : endCell t = endCell s ∨ (slot.val ≠ 0 ∧ decidePermission (endCell t) = decidePermission (endCell s))) :
    openSlot slot t = openSlot slot s := by
  have hpassed : (if slot.val = 0 then endCell t else decidePermission (endCell t))
      = (if slot.val = 0 then endCell s else decidePermission (endCell s)) := by
    rcases h with h | ⟨h0, h⟩
    · rw [h]
    · rw [if_neg h0, if_neg h0, h]
  unfold openSlot
  dsimp only
  rw [hpassed]

/-- A later event of the frame that is announced now (R5, R10, R11, R16). -/
def laterEvent (c : Instr) (s : State) : Prop :=
  (c = .masterFrameBoundary ∧ s.link.lock = .driving)
    ∨ ((c = .markObserved 4096 ∨ c = .missedMark) ∧ (s.link.lock = .locked ∨ s.link.lock = .coast))
    ∨ ∃ slot : Slot, c = .slotStart slot ∧ announcesSlots s.link.lock = true ∧ s.link.nextSlot ≤ slot.val

/-- A later event acts alike on states that time has made alike. -/
theorem exec_laterEvent_congr {c : Instr} {s t : State} (hc : laterEvent c s) (hdue : s.due = []) (hdue' : t.due = [])
    (hlock : t.link.lock = s.link.lock) (hnext : t.link.nextSlot = s.link.nextSlot)
    (h : endCell t = endCell s
      ∨ (s.link.lock ≠ .driving ∧ c ≠ .slotStart 0 ∧ decidePermission (endCell t) = decidePermission (endCell s))) :
    exec c s = exec c t := by
  have hpassed : passTime 4096 t = passTime 4096 s := by
    rw [passTime_eq, passTime_eq]
    rcases h with h | ⟨-, -, h⟩
    · rw [h]
    · exact h
  rcases hc with ⟨rfl, hl⟩ | ⟨rfl | rfl, hl⟩ | ⟨slot, rfl, hl, hn⟩
  · rw [exec_masterFrameBoundary hdue hl, exec_masterFrameBoundary hdue' (hlock.trans hl), masterBoundary, masterBoundary,
      h.resolve_right fun h => h.1 hl]
  · rw [exec_markObserved hdue, exec_markObserved hdue']
    have hp : passTime (4096 : Fin 4097).val t = passTime (4096 : Fin 4097).val s := hpassed
    rcases hl with hl | hl
    · simp only [observeMark, hlock, hl, hp]
    · simp only [observeMark, hlock, hl, hp]
  · rw [exec_missedMark hdue, exec_missedMark hdue']
    have hp : passTime Config.periodsPerFrame t = passTime Config.periodsPerFrame s := hpassed
    rcases hl with hl | hl <;> simp only [missMark, hlock, hl, hp]
  · have hstart : canStart slot s = true := (canStart_iff slot s).2 ⟨hl, hn⟩
    have hstart' : canStart slot t = true := (canStart_iff slot t).2 ⟨hlock ▸ hl, hnext ▸ hn⟩
    rw [exec_slotStart hdue hstart, exec_slotStart hdue' hstart', startSlot, startSlot, openSlot_congr]
    rcases h with h | ⟨-, hslot, hd⟩
    · exact .inl h.symm
    · refine .inr ⟨fun h0 => hslot ?_, hd.symm⟩
      rw [show slot = 0 from Fin.ext h0]

/-- Settles O4: a later event acts as on the state in which the cell has ended, and in which the decision has been made. -/
theorem timeThatHasPassed : Obligations.TimeThatHasPassed := by
  intro c s hdue hc
  have hended : exec c s = exec c (endCell s) :=
    exec_laterEvent_congr hc hdue (by simpa using hdue) (by simp) (by simp) (.inl (endCell_endCell s))
  refine ⟨fun cell hcell hends => ?_, fun cell u hcell hends hu => ?_, fun hcell hdecision hlock hslot => ?_⟩
  · rw [← endCell_of_no_pass hcell hends]
    exact hended
  · have he := Host.Outcome.next.inj ((exec_passEnd hdue hcell).symm.trans hu)
    rw [if_pos hends, endCell_withPosition] at he
    subst he
    refine hended.trans (congrArg (exec c) ?_)
    have hposition : (endCell s).link.position = s.link.position := by simp
    rw [← hposition]
    rfl
  · rcases decidePermission_cases s with ⟨hd, -⟩ | ⟨-, e⟩
    · simp [hd] at hdecision
    · refine ⟨grantsPermission s, by simp [grantsPermission, and_assoc], ?_⟩
      have hsame : endCell (decidePermission s) = decidePermission s :=
        endCell_of_none (by rw [e]; exact hcell)
      have hdecided : exec c s = exec c (decidePermission s) := by
        refine exec_laterEvent_congr hc hdue ?_ ?_ ?_ (.inr ⟨hlock, hslot, ?_⟩)
        · rw [e]; exact hdue
        · rw [e]
        · rw [e]
        · rw [hsame, decidePermission_twice, endCell_of_none hcell]
      rw [hdecided, e]

/-! ## Marks -/

/-- Settles O34: the marks of SEARCH and VERIFY, state by state. -/
theorem memberFindsTheFrame : Obligations.MemberFindsTheFrame := by
  intro s hdue
  refine ⟨fun count hl => ?_, fun count hl h => ?_, fun hl => ?_, fun hl hflag => ?_, fun hl => ?_, fun hl => ?_, fun hl => ?_⟩
  · rw [exec_markObserved hdue]
    simp only [observeMark, hl]
    rfl
  · rw [exec_markObserved hdue]
    simp only [observeMark, hl]
    rw [if_neg]
    · rfl
    · rintro ⟨hcount, hflag⟩
      rcases h with h | h
      · exact absurd (show count.val = 4096 from hcount) (Nat.ne_of_lt h)
      · simp [hflag] at h
  · rw [exec_missedMark hdue]
    simp only [missMark, hl]
    rfl
  · refine ⟨_, exec_markObserved hdue 4096, ?_⟩
    simp only [observeMark, hl]
    rw [if_pos ⟨rfl, hflag⟩, enterLocked, offerEvent_eq_offered]
    exact announceBoundary_announces _
  · rw [exec_missedMark hdue]
    simp only [missMark, hl]
  · rw [exec_clockLoss hdue]
    simp only [loseClock, hl]
    rfl
  · rw [exec_clockLoss hdue]
    rcases hl with hl | hl | hl <;> simp only [loseClock, hl]

/-- Settles O35: with nothing left of the frame before, each mark or its absence is a counted boundary. -/
theorem memberCountsItsBoundaries : Obligations.MemberCountsItsBoundaries := by
  intro s hdue hcell hdecision
  have hpassed : passTime 4096 s = s := by rw [passTime_eq, endCell_of_none hcell, decidePermission_of_decided hdecision]
  have hpassed' : passTime (4096 : Fin 4097).val s = s := hpassed
  have hpassed'' : passTime Config.periodsPerFrame s = s := hpassed
  refine ⟨fun hl => ⟨_, exec_markObserved hdue 4096, ?_⟩, fun hl => ⟨_, exec_missedMark hdue, ?_⟩,
    fun hl => ⟨_, exec_markObserved hdue 4096, ?_⟩, fun hl hmissed => ⟨_, exec_missedMark hdue, ?_⟩⟩
  · simp only [observeMark, hl, hpassed']
    exact announceBoundary_announces _
  · simp only [missMark, hl, hpassed'']
    exact announceBoundary_announces _
  · simp only [observeMark, hl, hpassed']
    exact announceBoundary_announces _
  · simp only [missMark, hl, hpassed'']
    rw [if_pos (by omega)]
    exact announceBoundary_announces _

end Sys2Proof.Machine
end

section
/-! What a lock loss reports, gives up and cuts (R10 to R13, R96, R97). -/
namespace Sys2Proof.Machine

open Sys2Proof.Claims Sys2Proof.Safety

/-! ## The steps of a lock loss -/

/-- What a member enters on a lock loss (R10 to R12). -/
def lossEntry : LossCause → State → State
  | .markMisplaced => takeReference
  | .marksMissed | .clockLost => enterSearch

/-- `s` with the line and the permission given up and the loss counted (R13). -/
def losing (s : State) : State :=
  { s with
    link.permission := false
    link.decisionDue := false
    tx.cell := none
    counters.lockLosses := up s.counters.lockLosses }

/-- `s` after the report of a lock loss and the cut of the pass, before a detach in progress completes (R13). -/
def lost (cause : LossCause) (s : State) : State := lossEntry cause (reportLoss cause (losing s))

theorem lockLoss_eq (cause : LossCause) (s : State) :
    lockLoss cause (lossEntry cause) s
      = if (lost cause s).station.state = .detaching then completeDetach (lost cause s) else lost cause s := by
  unfold lockLoss
  rw [bump_eq_up]
  rfl

/-- A lock loss acts on the state by its time: the mark's, the end of the frame, or now (R3, R12; log entry 5). -/
def lossTime (c : Instr) (s u : State) : Prop :=
  (c = .clockLoss ∧ u = s) ∨ (∃ count : Fin 4097, c = .markObserved count ∧ u = passTime count.val s)
    ∨ (c = .missedMark ∧ u = passTime 4096 s)

theorem exec_losesLock {c : Instr} {cause : LossCause} {s : State} (hdue : s.due = []) (h : losesLock c cause s) :
    ∃ u, lossTime c s u ∧ exec c s = .next (lockLoss cause (lossEntry cause) u) := by
  rcases h with ⟨hl, ⟨count, rfl, hcount, rfl⟩ | ⟨rfl, rfl⟩⟩ | ⟨hl, hmissed, rfl, rfl⟩
  · refine ⟨_, .inr (.inl ⟨count, rfl, rfl⟩), ?_⟩
    have hbefore : count.val ≠ Config.periodsPerFrame := Nat.ne_of_lt hcount
    rw [exec_markObserved hdue]
    rcases hl with hl | hl <;> (simp only [observeMark, hl]; rw [if_neg hbefore]; rfl)
  · refine ⟨_, .inl ⟨rfl, rfl⟩, ?_⟩
    rw [exec_clockLoss hdue]
    rcases hl with hl | hl <;> simp only [loseClock, hl] <;> rfl
  · refine ⟨_, .inr (.inr ⟨rfl, rfl⟩), ?_⟩
    have hmany : ¬(passTime Config.periodsPerFrame s).link.missed ≤ 1 := by
      rw [(passTime_lock _ s).2]
      omega
    rw [exec_missedMark hdue]
    simp only [missMark, hl]
    rw [if_neg hmany]
    rfl

/-- Time leaves the blocks alone that neither send nor decide. -/
theorem lossTime_frame {c : Instr} {s u : State} (h : lossTime c s u) :
    u.station = s.station ∧ u.map = s.map ∧ u.rx = s.rx ∧ u.host = s.host ∧ u.link.frame = s.link.frame
      ∧ u.counters.lockLosses = s.counters.lockLosses := by
  have hpassed (count : Nat) : (passTime count s).link.frame = s.link.frame
      ∧ (passTime count s).counters.lockLosses = s.counters.lockLosses := by
    unfold passTime decidePermission
    dsimp only
    (repeat' split) <;> simp
  rcases h with ⟨-, rfl⟩ | ⟨count, -, rfl⟩ | ⟨-, rfl⟩
  · exact ⟨rfl, rfl, rfl, rfl, rfl, rfl⟩
  · simp [hpassed]
  · simp [hpassed]

theorem lossTime_moves {c : Instr} {s u : State} (h : lossTime c s u) : Moves s u := by
  rcases h with ⟨-, rfl⟩ | ⟨count, -, rfl⟩ | ⟨-, rfl⟩
  · exact .refl
  · exact moves_passTime _ s
  · exact moves_passTime _ s

/-! ## The events of a lock loss -/

/-- The events of `t` are those of `s` and behind them results alone; the other events keep their count, and the frame its number. -/
def resultsPlaced (s t : State) : Prop :=
  (∃ new, t.events.records = s.events.records ++ new ∧ ∀ e ∈ new, ∀ n, e.kind ≠ .detached n)
    ∧ t.events.nonResultCount = s.events.nonResultCount ∧ t.link.frame = s.link.frame

theorem resultsPlaced.of_events {s t : State} (he : t.events = s.events) (hf : t.link.frame = s.link.frame) : resultsPlaced s t :=
  ⟨⟨[], by simp [he], by simp⟩, by rw [he], hf⟩

theorem resultsPlaced.trans {s t u : State} (h : resultsPlaced s t) (h' : resultsPlaced t u) : resultsPlaced s u := by
  obtain ⟨⟨new, hnew, hother⟩, hcount, hframe⟩ := h
  obtain ⟨⟨new', hnew', hother'⟩, hcount', hframe'⟩ := h'
  refine ⟨⟨new ++ new', by rw [hnew', hnew, List.append_assoc], fun e he => ?_⟩, hcount'.trans hcount, hframe'.trans hframe⟩
  rcases List.mem_append.1 he with he | he
  · exact hother e he
  · exact hother' e he

theorem resultsPlaced_ended (r : Record) (o : ResultOutcome) (s : State) : resultsPlaced s (ended r o s) :=
  ⟨⟨[_], rfl, by simp [resultOf]⟩, rfl, rfl⟩

theorem resultsPlaced_endCell (s : State) : resultsPlaced s (endCell s) := by
  rcases endCell_cases s with ⟨-, e⟩ | ⟨c, -, -, e⟩ | ⟨c, t, -, -, -, e⟩ | ⟨c, t, r, -, -, -, e⟩ <;> rw [e]
  · exact .of_events rfl rfl
  · exact .of_events rfl rfl
  · exact .of_events rfl rfl
  · rcases endPass_cases r { s with tx.cell := none } with ⟨-, e⟩ | ⟨-, -, e⟩ | ⟨-, -, -, e⟩ | ⟨-, -, -, e⟩ <;> rw [e]
    · exact resultsPlaced_ended _ _ _
    · exact resultsPlaced_ended _ _ _
    · exact resultsPlaced_ended _ _ _
    · exact .of_events rfl rfl

theorem resultsPlaced_decidePermission (s : State) : resultsPlaced s (decidePermission s) :=
  .of_events (by simp) (by rw [decidePermission_link])

theorem resultsPlaced_lossTime {c : Instr} {s u : State} (h : lossTime c s u) : resultsPlaced s u := by
  have hpassed (count : Nat) : resultsPlaced s (passTime count s) := by
    unfold passTime
    dsimp only
    (repeat' split)
    · exact (resultsPlaced_endCell s).trans (resultsPlaced_decidePermission _)
    · exact resultsPlaced_decidePermission s
    · exact resultsPlaced_endCell s
    · exact .of_events rfl rfl
  rcases h with ⟨-, rfl⟩ | ⟨count, -, rfl⟩ | ⟨-, rfl⟩
  · exact .of_events rfl rfl
  · exact hpassed _
  · exact hpassed _

theorem resultsPlaced_cutPass (s : State) : resultsPlaced s (cutPass s) := by
  rcases cutPass_cases s with ⟨-, e⟩ | ⟨r, -, e⟩ <;> rw [e]
  · exact .of_events rfl rfl
  · split
    · rcases cutRetransmission_cases r s with ⟨-, e⟩ | ⟨-, -, e⟩ | ⟨-, -, e⟩ <;> rw [e]
      · exact resultsPlaced_ended _ _ _
      · exact resultsPlaced_ended _ _ _
      · exact .of_events rfl rfl
    · have hclosed : resultsPlaced s (match r.number with | none => s | some n => closeNumber n r.dest s) := by
        split <;> exact .of_events rfl rfl
      rcases cutFirstPass_cases r s with ⟨-, e⟩ | ⟨-, e⟩ <;> rw [e]
      · exact hclosed.trans (resultsPlaced_ended _ _ _)
      · exact hclosed.trans (.of_events rfl rfl)

/-- The events of `t` are those of `s` and behind them new ones; while there is room for it, LINK_DOWN is one of them, and no DETACHED
stands before it (R13, R121). -/
def lossReported (cause : LossCause) (s t : State) : Prop :=
  ∃ new, t.events.records = s.events.records ++ new
    ∧ (s.events.nonResultCount < 16 →
        ∃ before after e, new = before ++ e :: after ∧ e.kind = .linkDown cause ∧ e.frame = s.link.frame
          ∧ ∀ f ∈ before, ∀ n, f.kind ≠ .detached n)

theorem resultsPlaced.lossReported {cause : LossCause} {s t u : State} (h : resultsPlaced s t) (h' : lossReported cause t u) :
    lossReported cause s u := by
  obtain ⟨⟨new, hnew, hother⟩, hcount, hframe⟩ := h
  obtain ⟨new', hnew', hreport⟩ := h'
  refine ⟨new ++ new', by rw [hnew', hnew, List.append_assoc], fun hroom => ?_⟩
  obtain ⟨before, after, e, rfl, hkind, he, hbefore⟩ := hreport (hcount ▸ hroom)
  refine ⟨new ++ before, after, e, by rw [List.append_assoc], hkind, he.trans hframe, fun f hf => ?_⟩
  rcases List.mem_append.1 hf with hf | hf
  · exact hother f hf
  · exact hbefore f hf

theorem lossReported.grows {cause : LossCause} {s t u : State} (h : lossReported cause s t)
    (hgrows : ∃ new, u.events.records = t.events.records ++ new) : lossReported cause s u := by
  obtain ⟨new, hnew, hreport⟩ := h
  obtain ⟨new', hnew'⟩ := hgrows
  refine ⟨new ++ new', by rw [hnew', hnew, List.append_assoc], fun hroom => ?_⟩
  obtain ⟨before, after, e, rfl, hkind, he, hbefore⟩ := hreport hroom
  exact ⟨before, after ++ new', e, by simp, hkind, he, hbefore⟩

theorem lossReported_offered (cause : LossCause) (s : State) : lossReported cause s (offered (.linkDown cause) s) := by
  unfold offered
  split
  · exact ⟨[_], rfl, fun _ => ⟨[], [], _, rfl, rfl, rfl, by simp⟩⟩
  · next hfull => exact ⟨[], by simp, fun h => absurd h hfull⟩

theorem lossReported_reportLoss (cause : LossCause) (s : State) : lossReported cause s (reportLoss cause s) := by
  obtain ⟨n, e | e⟩ := reportLoss_cases cause s <;> rw [e]
  · obtain ⟨⟨new, hnew, -⟩, -⟩ := resultsPlaced_cutPass (offered (.linkDown cause) { s with choices := n })
    exact (lossReported_offered cause { s with choices := n }).grows ⟨new, hnew⟩
  · exact (resultsPlaced_cutPass { s with choices := n }).lossReported (lossReported_offered cause _)

theorem offered_grows (k : EventKind) (s : State) : ∃ new, (offered k s).events.records = s.events.records ++ new := by
  unfold offered
  split
  · exact ⟨[_], rfl⟩
  · exact ⟨[], by simp⟩

theorem completeDetach_grows (s : State) : ∃ new, (completeDetach s).events.records = s.events.records ++ new := by
  obtain ⟨new, ⟨hnew, -⟩, -⟩ := flushed_events s.tx.records s
  obtain ⟨new', hnew'⟩ := offered_grows (.detached s.tx.records.length) (allFlushed s)
  have hplaced : (allFlushed s).events.records = s.events.records ++ new := hnew
  refine ⟨new ++ new', ?_⟩
  rw [(completeDetach_blocks s).2.2.1, hnew', hplaced, List.append_assoc]

/-! ## The cut of the pass -/

theorem noneSending_ended {t : Ticket} {s u : State} (hothers : ∀ o ∈ s.tx.records, o.ticket ≠ t → o.state ≠ .sending)
    (hu : u.tx.records = s.tx.records) (q : Record) (hq : q.ticket = t) (o : ResultOutcome) : noneSending (ended q o u) := by
  intro x hx
  obtain ⟨hmem, hne⟩ := List.mem_filter.1 hx
  exact hothers x (hu ▸ hmem) (hq ▸ by simpa using hne)

theorem noneSending_replaced {t : Ticket} {s u : State} (hothers : ∀ o ∈ s.tx.records, o.ticket ≠ t → o.state ≠ .sending)
    (hu : u.tx.records = s.tx.records) (q : Record) (hq : q.ticket = t) (hstate : q.state ≠ .sending) : noneSending (replaced q u) := by
  intro x hx
  obtain ⟨y, hy, rfl⟩ := List.mem_map.1 hx
  split
  · exact hstate
  · next hne => exact hothers y (hu ▸ hy) (hq ▸ hne)

/-- No record is SENDING after the pass in progress is cut (R96, R97). -/
theorem noneSending_cutPass {s : State} (h : passesSound s) : noneSending (cutPass s) := by
  obtain ⟨hnodup, -, -, hone, -⟩ := h
  rcases cutPass_cases s with ⟨hnone, e⟩ | ⟨r, hsending, e⟩ <;> rw [e]
  · exact sendingRecord_eq_none hnone
  obtain ⟨hr, hs⟩ := sendingRecord_mem hsending
  have hothers : ∀ o ∈ s.tx.records, o.ticket ≠ r.ticket → o.state ≠ .sending := by
    intro o ho hne hsending'
    obtain ⟨a, b, hsplit, -⟩ := split_at_record hnodup hr
    have hcount : sendingCount s.tx.records ≤ 1 := hone
    rw [hsplit, sendingCount_split, if_pos hs] at hcount
    have hab : o ∈ a ++ b := by
      rw [hsplit] at ho
      rcases List.mem_append.1 ho with ho | ho
      · exact List.mem_append_left b ho
      · exact List.mem_append_right a ((List.mem_cons.1 ho).resolve_left fun e => hne (congrArg Record.ticket e))
    have hpos : 0 < sendingCount (a ++ b) := List.length_pos_of_mem (List.mem_filter.2 ⟨hab, by simpa using hsending'⟩)
    omega
  split
  · rcases cutRetransmission_cases r s with ⟨-, e⟩ | ⟨-, -, e⟩ | ⟨-, -, e⟩ <;> rw [e]
    · exact noneSending_ended hothers rfl _ rfl .delivered
    · exact noneSending_ended hothers rfl _ rfl .cancelled
    · exact noneSending_replaced hothers rfl _ rfl (by simp)
  · have hclosed : (match r.number with | none => s | some n => closeNumber n r.dest s).tx.records = s.tx.records := by
      split <;> rfl
    rcases cutFirstPass_cases r s with ⟨-, e⟩ | ⟨-, e⟩ <;> rw [e]
    · exact noneSending_ended hothers hclosed _ rfl .cancelled
    · exact noneSending_replaced hothers hclosed _ rfl (by simp)

theorem offered_lockLosses (k : EventKind) (u : State) : (offered k u).counters.lockLosses = u.counters.lockLosses := by
  unfold offered
  split <;> rfl

/-- A report of a lock loss cuts the pass on a queue that is the state's own, and the results it places stay (R13). -/
theorem reportLoss_cut (cause : LossCause) (s : State) :
    ∃ a : State, a.tx = s.tx ∧ (reportLoss cause s).tx = (cutPass a).tx ∧ (reportLoss cause s).counters.lockLosses = s.counters.lockLosses
      ∧ ∀ e ∈ (cutPass a).events.records, e ∈ (reportLoss cause s).events.records := by
  obtain ⟨n, e | e⟩ := reportLoss_cases cause s <;> rw [e]
  · refine ⟨offered (.linkDown cause) { s with choices := n }, (offered_frame _ _).2.2.2.2.1, rfl, ?_, fun _ h => h⟩
    rw [(cutPass_frame _).2.2.2.2.2.2.1, offered_lockLosses]
  · refine ⟨{ s with choices := n }, rfl, (offered_frame _ _).2.2.2.2.1, ?_, fun x hx => ?_⟩
    · rw [offered_lockLosses, (cutPass_frame _).2.2.2.2.2.2.1]
    · obtain ⟨new, hnew⟩ := offered_grows (.linkDown cause) (cutPass { s with choices := n })
      rw [hnew]
      exact List.mem_append_left _ hx

/-! ## What is given up -/

/-- What a member that has lost lock holds of each block, before a detach in progress completes (R13). -/
theorem lost_blocks (cause : LossCause) (s : State) :
    (lost cause s).station = s.station ∧ (lost cause s).host = s.host
      ∧ (lost cause s).link.lock = (if cause = .markMisplaced then .verify else .search)
      ∧ (lost cause s).link.permission = false ∧ (lost cause s).link.frame = s.link.frame
      ∧ (lost cause s).map = { s.map with
          frameGeneration := if cause = .markMisplaced then generationOf s else s.map.frameGeneration }
      ∧ (lost cause s).rx = { s.rx with
          receiving := none
          controlRecord := if cause = .markMisplaced then none else s.rx.controlRecord }
      ∧ (lost cause s).tx = (reportLoss cause (losing s)).tx ∧ (lost cause s).events = (reportLoss cause (losing s)).events
      ∧ (lost cause s).counters = (reportLoss cause (losing s)).counters := by
  obtain ⟨-, hstation, hlink, hmap, hrx, hhost, -⟩ := reportLoss_frame cause (losing s)
  unfold lost
  generalize reportLoss cause (losing s) = u at *
  have hframe : u.link.frame = s.link.frame := (congrArg LinkTiming.frame hlink :)
  have hgeneration : generationOf u = generationOf s := by rw [generationOf, hmap]; rfl
  cases cause with
  | markMisplaced =>
    refine ⟨hstation, hhost, rfl, rfl, hframe, ?_, ?_, rfl, rfl, rfl⟩
    · rw [lossEntry, takeReference_eq_referenced, referenced, hgeneration, if_pos rfl]
      exact congrArg (fun m : MapUnit => { m with frameGeneration := generationOf s }) hmap
    · exact congrArg (fun x : Receiver => { x with receiving := none, controlRecord := none }) hrx
  | marksMissed =>
    exact ⟨hstation, hhost, rfl, rfl, hframe, hmap, congrArg (fun x : Receiver => { x with receiving := none }) hrx, rfl, rfl, rfl⟩
  | clockLost =>
    exact ⟨hstation, hhost, rfl, rfl, hframe, hmap, congrArg (fun x : Receiver => { x with receiving := none }) hrx, rfl, rfl, rfl⟩

/-- Settles O36: what a lock loss gives up in every case, what a station that stays attached keeps, and what a completed detach
leaves. -/
theorem lockLossIsReported : Obligations.LockLossIsReported := by
  intro s c cause hdue hsound hloss
  obtain ⟨u, htime, hexec⟩ := exec_losesLock hdue hloss
  rw [lockLoss_eq] at hexec
  obtain ⟨hstation, hmap, hrx, hhost, hframe, hlosses⟩ := lossTime_frame htime
  obtain ⟨hstation', hhost', hlock', hpermission', hframe', hmap', hrx', htx', hevents', hcounters'⟩ := lost_blocks cause u
  have hpasses : passesSound (losing u) := passesSound_congr ((lossTime_moves htime).passes hsound) rfl rfl (.inl rfl)
  obtain ⟨a, ha, hcut, hcount, -⟩ := reportLoss_cut cause (losing u)
  have hnone : noneSending (lost cause u) := by
    have hpasses' : passesSound a := passesSound_congr hpasses (by rw [ha]) (by rw [ha]) (.inr (by rw [ha]))
    unfold noneSending
    rw [htx', hcut]
    exact noneSending_cutPass hpasses'
  have hcell : (lost cause u).tx.cell = none := by
    rw [htx']
    exact (moves_reportLoss cause (s := losing u) rfl).cell.elim id fun e => e
  have hreported : lossReported cause s (lost cause u) := by
    refine (resultsPlaced_lossTime htime).lossReported ?_
    obtain ⟨new, hnew, hreport⟩ := lossReported_reportLoss cause (losing u)
    exact ⟨new, hevents' ▸ hnew, hreport⟩
  have hlost : (lost cause u).counters.lockLosses = up s.counters.lockLosses := by
    rw [hcounters', hcount, ← hlosses]
    rfl
  have hsame : (lost cause u).station.state = s.station.state := by rw [hstation', hstation]
  by_cases hdetaching : (lost cause u).station.state = .detaching
  · rw [if_pos hdetaching] at hexec
    obtain ⟨hstationOff, hlinkOff, -, hcellOff, hreceivingOff, -⟩ := completeDetach_fields (lost cause u)
    obtain ⟨new, hnew, hreport⟩ := hreported.grows (completeDetach_grows (lost cause u))
    have hcountersOff : (completeDetach (lost cause u)).counters.lockLosses = up s.counters.lockLosses := by
      rw [(completeDetach_blocks _).2.2.2.1, offered_lockLosses, (allFlushed_frame _).2.2.2.2.2.2.2, hlost]
    refine ⟨_, new, hexec, hnew, hcountersOff, ?_, hcellOff, ?_, hreceivingOff, ?_, hreport, fun h => ?_, fun _ => ⟨?_, ?_⟩⟩
    · rw [hlinkOff]
      rfl
    · unfold noneSending
      rw [completeDetach_records]
      simp
    · rw [hlinkOff]
      exact hframe'.trans hframe
    · exact absurd (hsame ▸ hdetaching) h
    · rw [hstationOff, hstation', hstation]
    · rw [hlinkOff]
      rfl
  · rw [if_neg hdetaching] at hexec
    obtain ⟨new, hnew, hreport⟩ := hreported
    have hstays : s.station.state ≠ .detaching := hsame ▸ hdetaching
    refine ⟨_, new, hexec, hnew, hlost, hpermission', hcell, hnone, ?_, hframe'.trans hframe, hreport,
      fun _ => ⟨hstation'.trans hstation, hlock', ?_, ?_, hhost'.trans hhost⟩, fun h => absurd h hstays⟩
    · rw [hrx']
    · rw [hmap', hmap, generationOf, hmap]
      rfl
    · rw [hrx', hrx]

/-! ## What is cut -/

/-- Before the end of its last cell a pass is not touched by the time of a lock loss: at most the cell has gone (R3, R69). -/
theorem lossTime_tx {c : Instr} {s u : State} (h : lossTime c s u) (hbefore : beforePassEnd c s) :
    { u.tx with cell := none } = { s.tx with cell := none } := by
  have hended (hends : ∀ cell, s.tx.cell = some cell → cell.endsPassOf = none) :
      { (endCell s).tx with cell := none } = { s.tx with cell := none } := by
    rcases hc : s.tx.cell with _ | cell
    · rw [endCell_of_none hc]
    · rw [endCell_of_no_pass hc (hends cell hc)]
  have hpassed (count : Nat) (hearly : ∀ cell, s.tx.cell = some cell → cell.endsPassOf.isSome = true → count < 256 * cell.slot.val + 240) :
      { (passTime count s).tx with cell := none } = { s.tx with cell := none } := by
    have hcell : { (if cellEndedBy count s then endCell s else s).tx with cell := none } = { s.tx with cell := none } := by
      split
      · next he =>
        refine hended fun cell hc => ?_
        by_contra hne
        have hlate : 256 * cell.slot.val + 240 ≤ count := by
          rw [cellEndedBy, hc] at he
          exact of_decide_eq_true he
        have := hearly cell hc (Option.isSome_iff_ne_none.2 hne)
        omega
      · rfl
    unfold passTime
    dsimp only
    rw [← hcell]
    split <;> simp
  rcases h with ⟨-, rfl⟩ | ⟨count, rfl, rfl⟩ | ⟨rfl, rfl⟩
  · rfl
  · exact hpassed _ fun cell hc hends => (hbefore cell hc hends).2 count rfl
  · exact hpassed _ fun cell hc hends => absurd rfl (hbefore cell hc hends).1

/-- `s` without the number of a cut first pass in the open sets of its destinations (R67, R96). -/
def numberClosed (r : Record) (s : State) : State :=
  match r.number with
  | none => s
  | some n => closeNumber n r.dest s

theorem numberClosed_tx (r : Record) (s : State) : ∃ sets, (numberClosed r s).tx = { s.tx with openSets := sets }
    ∧ ∀ n : Node, sets.get n
        = (match r.number with
          | none => s.tx.openSets.get n
          | some k => if r.dest.getLsbD n.val then s.tx.openSets.get n &&& ~~~(1#16 <<< k.toNat) else s.tx.openSets.get n) := by
  unfold numberClosed
  rcases r.number with _ | k
  · exact ⟨_, rfl, fun n => rfl⟩
  · refine ⟨_, rfl, fun n => ?_⟩
    simp [hasNode, openSet, onlyNumber]

theorem ended_tx (r : Record) (o : ResultOutcome) (s : State) : (ended r o s).tx = { s.tx with
    records := s.tx.records.filter (fun q => q.ticket != r.ticket)
    retryOrder := s.tx.retryOrder.filter (fun t => t != r.ticket)
    freeBlocks := s.tx.freeBlocks + blocks r.payload.length } := rfl

theorem replaced_tx (r : Record) (s : State) : (replaced r s).tx = { s.tx with
    records := s.tx.records.map (fun q => if q.ticket = r.ticket then r else q) } := rfl

theorem cutPass_of_sending {r : Record} {s : State} (h : sendingRecord s = some r) :
    cutPass s = if r.retransmitting then cutRetransmission r s else cutFirstPass r s := by
  rw [cutPass, h]

/-- The result of a record that has ended is among the events. -/
theorem mem_ended_events (r : Record) (o : ResultOutcome) (s : State) : ∃ e ∈ (ended r o s).events.records, e.kind = resultOf r o :=
  ⟨_, List.mem_append_right _ List.mem_cons_self, rfl⟩

/-- Settles O37: the pass is cut on the queue as it stood before the loss. -/
theorem lockLossCutsThePass : Obligations.LockLossCutsThePass := by
  intro s c cause r p hdue hloss hbefore hattached hsending hp cut
  obtain ⟨u, htime, hexec⟩ := exec_losesLock hdue hloss
  obtain ⟨hstation, -⟩ := lossTime_frame htime
  obtain ⟨hstation', -, -, -, -, -, -, htx', hevents', -⟩ := lost_blocks cause u
  rw [lockLoss_eq, if_neg (by simp [hstation', hstation, hattached])] at hexec
  obtain ⟨a, ha, hcut, -, hplaced⟩ := reportLoss_cut cause (losing u)
  have hqueue : a.tx = { s.tx with cell := none } := ha.trans (lossTime_tx htime hbefore)
  have hfound : sendingRecord a = some r := by
    have hsame : (fun q : Record => decide (q.state = .sending)) = fun q => q.state == .sending := rfl
    rw [sendingRecord, hqueue, ← hsame]
    exact hsending
  have htx : (lost cause u).tx = (cutPass a).tx := htx'.trans hcut
  have hevent {o : ResultOutcome} (h : ∃ e ∈ (cutPass a).events.records, e.kind = resultOf cut o) :
      ∃ e ∈ (lost cause u).events.records, e.kind = resultOf cut o := by
    obtain ⟨e, he, hkind⟩ := h
    exact ⟨e, hevents' ▸ hplaced e he, hkind⟩
  refine ⟨_, hexec, fun hkind => ?_, fun hkind => ?_⟩
  · have hfirst := (cutPass_of_sending hfound).trans (if_neg (by simp [Record.retransmitting, hp, hkind]))
    obtain ⟨sets, hclosed, hsets⟩ := numberClosed_tx r a
    rw [hqueue] at hclosed hsets
    rw [htx]
    rcases cutFirstPass_cases r a with ⟨hcancel, e⟩ | ⟨hcancel, e⟩
    · have hcutEnded : cutPass a = ended cut .cancelled (numberClosed r a) := hfirst.trans e
      have hends := hevent (o := .cancelled) (hcutEnded ▸ mem_ended_events cut .cancelled (numberClosed r a))
      rw [hcutEnded, ended_tx, hclosed]
      exact ⟨hsets, rfl, rfl, fun h => by simp [hcancel] at h, fun _ => ⟨rfl, rfl, hends⟩⟩
    · have hcutQueued : cutPass a = replaced { cut with state := .queued, number := none, cancelRequested := false } (numberClosed r a) :=
        hfirst.trans e
      rw [hcutQueued, replaced_tx, hclosed]
      refine ⟨hsets, rfl, rfl, fun _ => ⟨?_, rfl, rfl⟩, fun h => by simp [hcancel] at h⟩
      rw [replaced_tx, ← hcancel]
  · have hagain := (cutPass_of_sending hfound).trans (if_pos (by simp [Record.retransmitting, hp, hkind]))
    rw [htx]
    rcases cutRetransmission_cases r a with ⟨hempty, e⟩ | ⟨hpending, hcancel, e⟩ | ⟨hpending, hcancel, e⟩
    · have hcutEnded : cutPass a = ended cut .delivered a := hagain.trans e
      have hends := hevent (o := .delivered) (hcutEnded ▸ mem_ended_events cut .delivered a)
      rw [hcutEnded, ended_tx, hqueue]
      exact ⟨rfl, rfl, rfl, fun _ => ⟨rfl, rfl, hends⟩, fun h => absurd hempty h, fun h => absurd hempty h⟩
    · have hcutEnded : cutPass a = ended cut .cancelled a := hagain.trans e
      have hends := hevent (o := .cancelled) (hcutEnded ▸ mem_ended_events cut .cancelled a)
      rw [hcutEnded, ended_tx, hqueue]
      exact ⟨rfl, rfl, rfl, fun h => absurd h hpending, fun _ _ => ⟨rfl, rfl, hends⟩, fun _ h => by simp [hcancel] at h⟩
    · have hcutRetry : cutPass a = replaced { cut with state := .retry, ackTimer := 0, cancelRequested := false }
          { a with tx.retryOrder := r.ticket :: a.tx.retryOrder } := hagain.trans e
      rw [hcutRetry, replaced_tx, hqueue]
      refine ⟨rfl, rfl, rfl, fun h => absurd h hpending, fun _ h => by simp [hcancel] at h, fun _ _ => ⟨?_, rfl, rfl⟩⟩
      rw [replaced_tx, ← hcancel]

end Sys2Proof.Machine
end

section
/-! What the part sends in a slot that starts now (R16, R17, R20 to R22, R60 to R70, R90). -/
namespace Sys2Proof.Machine

open Sys2Proof.Claims Sys2Proof.Safety

/-! ## The start of a slot -/

theorem openSlot_now {slot : Slot} {s : State} (h : startsNow slot s) : openSlot slot s = atSlot slot s := by
  obtain ⟨-, -, -, hcell, hdecision⟩ := h
  unfold openSlot
  dsimp only
  rw [endCell_of_none hcell]
  by_cases h0 : slot.val = 0
  · simp [h0, atSlot, Config.periodsPerSlot]
  · rw [if_neg h0, if_neg h0, decidePermission_of_decided (hdecision.resolve_right h0), atSlot, if_neg h0]
    rfl

/-- A slot that starts now is driven, or received (R16, R17). -/
theorem exec_slotStart_now {slot : Slot} {s : State} (h : startsNow slot s) : exec (.slotStart slot) s
    = .next (if drivesSlot slot s then transmitInSlot slot (atSlot slot s) else { atSlot slot s with rx.receiving := some slot }) := by
  obtain ⟨hdue, hslots, hnext, -⟩ := id h
  rw [exec_slotStart hdue ((canStart_iff slot s).2 ⟨hslots, hnext⟩), startSlot, openSlot_now h]
  rfl

/-- An owned slot with permission is driven with the cell that R61 chooses. -/
theorem exec_slotStart_owned {slot : Slot} {s : State} (h : startsNow slot s) (h0 : slot.val ≠ 0) (hmay : mayDrive slot s) :
    exec (.slotStart slot) s = .next (chooseCell slot (atSlot slot s)) := by
  rw [exec_slotStart_now h, if_pos ((drivesSlot_iff slot s).2 (.inl ⟨h0, hmay⟩)), transmitInSlot, if_neg h0]

/-! ## Cells composed -/

theorem driveCell_eq_driving (slot : Slot) (c : Cell) (ending : Option Ticket) (s : State) :
    driveCell slot c ending s = driving slot c ending s := by
  unfold driveCell driving
  cases s.rx.owed <;> rfl

theorem fillerCell_eq {n : Node} {s : State} (h : s.station.config.node = some n) :
    fillerCell s = filler n s.station.config.epoch := by
  unfold fillerCell sourceNibble
  rw [h]
  rfl

theorem controlCell_eq {n : Node} {s : State} {content : List Byte} (h : s.station.config.node = some n)
    (hc : s.map.content = some content) :
    controlCell s = { filler n s.station.config.epoch with kind := 3, total := 16, count := 16, payload := content } := by
  unfold controlCell
  rw [fillerCell_eq h, hc]
  rfl

theorem dataCell_eq {n : Node} {s : State} (h : s.station.config.node = some n) (r : Record) (set : NodeSet) (k : Nat) :
    dataCell r set k s = dataOf n s.station.config.epoch r (r.number.getD 0) set k := by
  have hset : setField set = set.setWidth 16 := BitVec.eq_of_toNat_eq (by
    rw [setField_toNat, BitVec.toNat_setWidth_of_le (by decide)])
  unfold dataCell dataOf
  dsimp only
  rw [fillerCell_eq h, hset, cellCount_eq_cells]
  rfl

/-- A cell of a record that asks for no acknowledgement bears no number (R20). -/
theorem dataOf_unacknowledged {r : Record} (h : r.ackreq = false) (n : Node) (epoch : Byte) (a b : Nibble) (set : NodeSet) (k : Nat) :
    dataOf n epoch r a set k = dataOf n epoch r b set k := by
  simp [dataOf, h]

/-- The next cell of a record and what its sending leaves of the record (R68, R69). -/
theorem sendNextCell_eq {n : Node} {s : State} (h : s.station.config.node = some n) (slot : Slot) (r : Record) (p : Pass) :
    sendNextCell slot r p s
      = driving slot (dataOf n s.station.config.epoch r (r.number.getD 0) p.set p.nextIndex)
          (if p.nextIndex + 1 = cells r.payload.length then some r.ticket else none)
          (replaced { r with pass := some { p with nextIndex := p.nextIndex + 1 } } s) := by
  have hlast : (if (p.nextIndex + 1 == cells r.payload.length) = true then some r.ticket else none)
      = if p.nextIndex + 1 = cells r.payload.length then some r.ticket else none := by
    simp only [beq_iff_eq]
  unfold sendNextCell
  dsimp only
  rw [driveCell_eq_driving, dataCell_eq h, cellCount_eq_cells, putRecord_eq_replaced, hlast]

/-! ## The choice of a record -/

/-- Whether a record may start rests on which records are older, not on their order (R60). -/
theorem mayStart_congr {a b : List Record} (h : ∀ o, o ∈ a ↔ o ∈ b) (m : Record) (s : State) : mayStart a m s ↔ mayStart b m s := by
  simp only [mayStart, h]

/-- Walking the records in order of acceptance, those that may not start are passed over (R61). -/
theorem oldestEligible_append {cls : MsgClass} {s : State} (older rest : List Record) (passed : List Record)
    (h : ∀ before q after, older = before ++ q :: after → q.cls = cls → ¬mayStart (passed ++ before) q s) :
    oldestEligible cls s passed (older ++ rest) = oldestEligible cls s (older.reverse ++ passed) rest := by
  induction older generalizing passed with
  | nil => rfl
  | cons q older ih =>
    have hq : ¬(q.cls = cls ∧ eligible passed q s = true) := by
      rintro ⟨hcls, hel⟩
      exact h [] q older rfl hcls (by simpa using (eligible_iff passed q s).1 hel)
    have hrest : oldestEligible cls s (q :: passed) (older ++ rest) = oldestEligible cls s (older.reverse ++ q :: passed) rest := by
      refine ih (q :: passed) fun before x after e hcls hmay => ?_
      refine h (q :: before) x after (by rw [e]; rfl) hcls ((mayStart_congr (fun o => ?_) x s).1 hmay)
      simp only [List.mem_append, List.mem_cons]
      tauto
    rw [List.cons_append, oldestEligible, if_neg hq, hrest]
    simp

theorem oldestEligible_none {cls : MsgClass} {s : State} (h : noneOf cls s) : oldestEligible cls s [] s.tx.records = none := by
  have hwalk := oldestEligible_append s.tx.records [] [] (cls := cls) (s := s) fun before q after e hcls => by
    simpa using h before q after e hcls
  rw [List.append_nil] at hwalk
  rw [hwalk]
  rfl

theorem oldestEligible_some {cls : MsgClass} {older younger : List Record} {m : Record} {s : State}
    (h : oldestOf cls older m younger s) : oldestEligible cls s [] s.tx.records = some m := by
  obtain ⟨hrecords, hcls, hmay, hfirst⟩ := h
  have hel : eligible (older.reverse ++ []) m s = true :=
    (eligible_iff _ m s).2 ((mayStart_congr (fun o => by simp) m s).1 hmay)
  have hwalk := oldestEligible_append older (m :: younger) [] (cls := cls) (s := s) fun before q after e hq => by
    simpa using hfirst before q after e hq
  rw [hrecords, hwalk, oldestEligible, if_pos ⟨hcls, hel⟩]

theorem sendingRecord_of_noneSending {s : State} (h : noneSending s) : sendingRecord s = none := by
  rw [sendingRecord, List.find?_eq_none]
  simpa using h

/-- With nothing SENDING the choice starts a pass while ATTACHED, and none while DETACHING (R61, R62). -/
theorem chooseCell_of_noneSending {slot : Slot} {s : State} (h : noneSending s) :
    chooseCell slot s = if s.station.state = .attached then chooseNew slot s else driveCell slot (fillerCell s) none s := by
  rw [chooseCell, sendingRecord_of_noneSending h]

/-- With nothing in RETRY and nothing that may start, a FILLER is sent (R61 step 5). -/
theorem chooseNew_filler {slot : Slot} {s : State} (hretry : s.tx.retryOrder = []) (hurgent : noneOf .urgent s) (hroutine : noneOf .routine s) :
    chooseNew slot s = driveCell slot (fillerCell s) none s := by
  have hnone : earliestRetry s = none := by rw [earliestRetry, hretry]
  rw [chooseNew, hnone, oldestEligible_none hurgent, oldestEligible_none hroutine]

/-- With nothing in RETRY the oldest URGENT record that may start, or with none the oldest ROUTINE one, starts (R61 steps 3 and 4). -/
theorem chooseNew_first {slot : Slot} {older younger : List Record} {m : Record} {s : State} (hretry : s.tx.retryOrder = [])
    (h : oldestOf .urgent older m younger s ∨ (noneOf .urgent s ∧ oldestOf .routine older m younger s)) :
    chooseNew slot s = startFirstPass slot m s := by
  have hnone : earliestRetry s = none := by rw [earliestRetry, hretry]
  rw [chooseNew, hnone]
  rcases h with h | ⟨hurgent, h⟩
  · rw [oldestEligible_some h]
  · rw [oldestEligible_none hurgent, oldestEligible_some h]

/-- Settles O38: the three kinds of slot that carry no message. -/
theorem slotsWithoutAMessage : Obligations.SlotsWithoutAMessage := by
  intro slot s hstart
  refine ⟨fun hnot hnot0 => ?_, fun n content hn h0 hmay hc => ?_, fun n hn h0 hmay hnone hidle => ?_⟩
  · have hdrives : ¬drivesSlot slot s = true := fun h => ((drivesSlot_iff slot s).1 h).elim hnot hnot0
    rw [exec_slotStart_now hstart, if_neg hdrives]
  · rw [exec_slotStart_now hstart, if_pos ((drivesSlot_iff slot s).2 (.inr ⟨h0, hmay⟩)), transmitInSlot, if_pos h0,
      driveCell_eq_driving, controlCell_eq (by exact hn) (by exact hc)]
    rfl
  · have hfiller : chooseCell slot (atSlot slot s) = driveCell slot (fillerCell (atSlot slot s)) none (atSlot slot s) := by
      rw [chooseCell_of_noneSending (by exact hnone)]
      rcases hidle with hdetaching | ⟨hretry, hurgent, hroutine⟩
      · exact if_neg (by rw [show (atSlot slot s).station = s.station from rfl, hdetaching]; decide)
      · split
        · exact chooseNew_filler hretry hurgent hroutine
        · rfl
    rw [exec_slotStart_owned hstart h0 hmay, hfiller, driveCell_eq_driving, fillerCell_eq (by exact hn)]
    rfl

/-- Settles O39: the record SENDING, or the record first in the RETRY order. -/
theorem passesContinueAndRetransmit : Obligations.PassesContinueAndRetransmit := by
  intro slot n r s hstart h0 hmay hn
  have hexec := exec_slotStart_owned hstart h0 hmay
  have hnode : (atSlot slot s).station.config.node = some n := hn
  refine ⟨fun p hsending hp => ?_, fun rest hattached hnone hretry hr => ?_⟩
  · have hfound : sendingRecord (atSlot slot s) = some r := hsending
    rw [hexec, chooseCell, hfound]
    dsimp only
    rw [hp]
    exact congrArg Host.Outcome.next (sendNextCell_eq hnode slot r p)
  · have hearliest : earliestRetry (atSlot slot s) = some r := by
      rw [earliestRetry, show (atSlot slot s).tx.retryOrder = r.ticket :: rest from hretry]
      exact hr
    rw [hexec, chooseCell_of_noneSending (by exact hnone), if_pos (by exact hattached), chooseNew, hearliest]
    dsimp only
    rw [startRetransmission]
    dsimp only
    rw [sendNextCell_eq (by exact hn), bump_eq_up]
    have hlast : (if 0 + 1 = cells r.payload.length then some r.ticket else none)
        = if cells r.payload.length = 1 then some r.ticket else none := if_congr eq_comm rfl rfl
    rw [← hlast]
    rfl

/-! ## The number of a first pass -/

/-- The number drawn is the first after the last assigned one that every destination leaves closed (R65). -/
theorem nextNumber_spec {dest : NodeSet} {s : State}
    (h : ∃ k : Fin 16, ∀ n : Node, dest.getLsbD n.val = true → (s.tx.openSets.get n).getLsbD k.val = false) :
    ∃ j < 16, nextNumber dest s = s.tx.lastNumber + 1 + BitVec.ofNat 4 j
      ∧ ∀ i < j, ∃ d : Node, dest.getLsbD d.val = true
          ∧ (s.tx.openSets.get d).getLsbD (s.tx.lastNumber + 1 + BitVec.ofNat 4 i).toNat = true := by
  obtain ⟨k, hk⟩ := h
  have hclosed : (openUnion dest s).getLsbD k.val = false := by
    rw [← Bool.not_eq_true, openUnion_getLsbD]
    rintro ⟨n, hn, hopen⟩
    rw [hk n hn] at hopen
    cases hopen
  have hreached (first : Nibble) : first + BitVec.ofNat 4 (BitVec.ofNat 4 k.val - first).toNat = BitVec.ofNat 4 k.val := by
    rw [BitVec.ofNat_toNat, BitVec.setWidth_eq, BitVec.add_comm, BitVec.sub_add_cancel]
  obtain ⟨j, hj, e, -, hpassed⟩ := drawNumber_spec (openUnion dest s) 16 (s.tx.lastNumber + 1)
    ⟨_, (BitVec.ofNat 4 k.val - (s.tx.lastNumber + 1)).isLt, by
      rw [hreached, BitVec.toNat_ofNat, Nat.mod_eq_of_lt k.isLt]
      exact hclosed⟩
  exact ⟨j, hj, e, fun i hi => (openUnion_getLsbD _ _ _).1 (hpassed i hi)⟩

/-- Settles O40: the oldest record that may start is begun, with a number drawn if it asks for acknowledgement. -/
theorem firstPassOfTheOldestEligible : Obligations.FirstPassOfTheOldestEligible := by
  intro slot n older younger m s hstart h0 hmay hn hattached hnone hretry holdest begun ending
  have hexec : exec (.slotStart slot) s = .next (startFirstPass slot m (atSlot slot s)) := by
    rw [exec_slotStart_owned hstart h0 hmay, chooseCell_of_noneSending (by exact hnone), if_pos (by exact hattached),
      chooseNew_first (by exact hretry) (by exact holdest)]
  have hending : (if 0 + 1 = cells m.payload.length then some m.ticket else none) = ending := if_congr eq_comm rfl rfl
  refine ⟨fun hack => ?_, fun hack => ?_⟩
  · rw [hexec, startFirstPass]
    dsimp only
    rw [if_neg (by simp [hack]), sendNextCell_eq (by exact hn), ← hending]
    exact congrArg (fun cell => Host.Outcome.next (driving slot cell _ _)) (dataOf_unacknowledged hack n _ (m.number.getD 0) 0 m.dest 0)
  · have hopen : ∃ k : Fin 16, ∀ d : Node, m.dest.getLsbD d.val = true → (s.tx.openSets.get d).getLsbD k.val = false := by
      rcases holdest with h | ⟨-, h⟩
      · exact h.2.2.1.2.2.2 hack
      · exact h.2.2.1.2.2.2 hack
    obtain ⟨j, hj, hnumber, hpassed⟩ := nextNumber_spec hopen
    refine ⟨j, hj, ?_, hpassed, ?_⟩
    · rw [← hnumber]
      exact fun d hd => nextNumber_closed hopen d hd
    · rw [hexec, startFirstPass]
      dsimp only
      rw [if_pos hack, sendNextCell_eq (by exact hn), ← hending, ← hnumber]
      rfl

end Sys2Proof.Machine
end

section
/-! Slots received: the verdicts on an image, and messages taken from their first cell to the mailbox (R24 to R32, R79, R80,
R102 to R109). -/
namespace Sys2Proof.Machine

open Sys2Proof.Claims Sys2Proof.Safety

/-! ## The verdict on an image -/

/-- The image of the slot being received is judged, and after slot 0's the permission decision is made (R17, R24). -/
theorem exec_cellReceived {slot : Slot} {s : State} (hdue : s.due = []) (hreceiving : s.rx.receiving = some slot) (image : List Byte) :
    exec (.cellReceived image) s = .next (decided slot (judgeImage slot image (sampled slot s))) := by
  rw [← decidePermission_eq_decided]
  simp only [exec, execCellReceived, settle_of_due_nil hdue, hreceiving]
  rfl

theorem decided_of_ne_zero {slot : Slot} (h : slot.val ≠ 0) (s : State) : decided slot s = s := if_neg fun hz => h hz.1

theorem judgeImage_empty {slot : Slot} {image : List Byte} (h : imageByte image 0 = 0xFF) (s : State) :
    judgeImage slot image s = { s with counters.emptySlots := up s.counters.emptySlots } := by
  rw [judgeImage, if_pos (show isEmptySlot image = true from beq_iff_eq.2 h), bump_eq_up]

theorem judgeImage_of_bad {slot : Slot} {image : List Byte} {s : State} (h : imageByte image 0 ≠ 0xFF)
    (hbad : ¬validCell s.station.config.node slot image) : judgeImage slot image s = { s with counters.bad := up s.counters.bad } := by
  have hempty : ¬isEmptySlot image = true := by simpa [isEmptySlot] using h
  have hvalid : validImage s.station.config.node slot image = false := Bool.eq_false_iff.2 (mt (validImage_iff _ _ _).1 hbad)
  rw [judgeImage, if_neg hempty, hvalid, bump_eq_up]
  rfl

theorem judgeImage_foreign {slot : Slot} {image : List Byte} {src : Node} {s : State} (h : imageByte image 0 ≠ 0xFF)
    (hvalid : validCell s.station.config.node slot image) (hsource : (readCell image).source.toNat = src.val)
    (hchecked : ownerChecked slot s) (howner : ¬ownedBy slot src s) :
    judgeImage slot image s = { s with counters.foreign := up s.counters.foreign } := by
  have hempty : ¬isEmptySlot image = true := by simpa [isEmptySlot] using h
  have hforeign : isForeign slot src s = true := by
    rw [← Bool.not_eq_false, isForeign_eq_false_iff]
    exact fun hall => howner (hall hchecked)
  simp only [judgeImage, if_neg hempty, (validImage_iff _ _ _).2 hvalid, nodeOf?_eq_some.2 hsource, bump_eq_up, hforeign, Bool.not_true,
    Bool.false_eq_true, if_false, if_true]

/-- R32: a DATA cell is addressed to this part. -/
theorem addressedHere_iff (c : Cell) (s : State) :
    addressedHere c s = true ↔ ∃ n, s.station.config.node = some n ∧ c.dest.getLsbD n.val = true := by
  unfold addressedHere
  rcases s.station.config.node with _ | n
  · simp
  · simp [hasNode, Cell.destSet, n.isLt]

/-- A good cell of the recorded epoch that carries no notice is heard, and its content follows (R29 to R32). -/
theorem exec_contentStep {slot : Slot} {image : List Byte} {src : Node} {s : State} (h : goodCell slot image src s)
    (hepoch : sameEpoch (readCell image) src s) (hnotice : ¬notice (readCell image) s) :
    exec (.cellReceived image) s = .next (decided slot (contentStep src (readCell image) (heard slot s))) := by
  rw [exec_of_goodCell h, handOff_of_sameEpoch hepoch, if_neg (mt (carriesNotice_iff _ _).1 hnotice)]

/-- Slot 0 carries control cells and no others (R26). -/
theorem slot_ne_zero {slot : Slot} {image : List Byte} {src : Node} {s : State} (h : goodCell slot image src s)
    (hkind : (readCell image).kind ≠ 3) : slot.val ≠ 0 := by
  obtain ⟨-, -, -, ⟨-, -, -, -, -, hslot, -⟩, -⟩ := h
  exact fun h0 => hkind (hslot.2 h0)

/-- Settles O45: the verdicts in the order of R25, R26, R28 and R29. -/
theorem slotsAreJudged : Obligations.SlotsAreJudged := by
  intro image s hdue
  refine ⟨fun hnone => ?_, fun slot hreceiving => ?_⟩
  · simp only [exec, execCellReceived, settle_of_due_nil hdue, hnone]
  have hexec := exec_cellReceived hdue hreceiving image
  refine ⟨fun hempty => ?_, fun hdriven hbad => ?_, fun src hdriven hvalid hsource hchecked howner => ?_,
    fun src hgood hepoch hnotice hkind => ?_⟩
  · rw [hexec, judgeImage_empty hempty]
    rfl
  · rw [hexec, judgeImage_of_bad hdriven (by exact hbad)]
    rfl
  · rw [hexec, judgeImage_foreign hdriven (by exact hvalid) hsource (by exact hchecked) (by exact howner), decided_of_ne_zero hchecked.1]
    rfl
  · have hother : (readCell image).kind ≠ 3 := by
      rcases hkind with h | ⟨h, -⟩ <;> rw [h] <;> decide
    have hcontent : contentStep src (readCell image) (heard slot s) = heard slot s := by
      rw [contentStep, if_neg (by exact hother)]
      refine if_neg fun hdata => ?_
      rcases hkind with h | ⟨h, hnot⟩
      · exact absurd (h.symm.trans hdata.1) (by decide)
      · exact hnot ⟨h, (addressedHere_iff _ _).1 hdata.2⟩
    rw [exec_contentStep hgood hepoch hnotice, hcontent, decided_of_ne_zero (slot_ne_zero hgood hother)]

/-- A good DATA cell for this part reaches the context of its source (R32, R102). -/
theorem exec_dataCell {slot : Slot} {image : List Byte} {src : Node} {s : State} (h : goodCell slot image src s)
    (hepoch : sameEpoch (readCell image) src s) (hnotice : ¬notice (readCell image) s) (hdata : dataForUs (readCell image) s) :
    exec (.cellReceived image) s = .next (dataStep src (readCell image) (heard slot s)) := by
  have hother : (readCell image).kind ≠ 3 := by
    rw [hdata.1]
    decide
  have hcontent : contentStep src (readCell image) (heard slot s) = dataStep src (readCell image) (heard slot s) := by
    rw [contentStep, if_neg (by exact hother)]
    exact if_pos ⟨hdata.1, (addressedHere_iff _ _).2 hdata.2⟩
  rw [exec_contentStep h hepoch hnotice, hcontent, decided_of_ne_zero (slot_ne_zero h hother)]

/-! ## Messages -/

/-- The mailbox entry of a message assembled from a source, with its context IDLE (R109). -/
def mailed (src : Node) (a : Assembly) (s : State) : State :=
  withContext src .idle
    { s with
      rx.mailbox := s.rx.mailbox ++ [⟨src, a.tag, a.bytes, a.ackreq, s.rx.lossCount, s.link.frame⟩]
      rx.lossCount := 0 }

theorem completeMessage_unacknowledged {src : Node} {a : Assembly} (h : a.ackreq = false) (s : State) :
    completeMessage src a s = mailed src a s := by
  unfold completeMessage
  dsimp only
  exact if_neg (by simp [h])

/-- An acknowledged message is recorded as the last accepted and owed (R80, R109). -/
theorem completeMessage_acknowledged {src : Node} {a : Assembly} (h : a.ackreq = true) {s : State} {epoch : Byte}
    (he : (s.rx.peers.get src).epoch = some epoch) :
    completeMessage src a s = owing src a.number epoch
      { mailed src a s with rx.peers := s.rx.peers.set src.val { epoch := some epoch, lastAccepted := some a.number } } := by
  have hget (p : Peer) : (s.rx.peers.set src.val p).get src = p := by simp [Vector.get_eq_getElem]
  have howes : completeMessage src a s = owing src a.number
      (((s.rx.peers.set src.val { epoch := (s.rx.peers.get src).epoch, lastAccepted := some a.number }).get src).epoch.getD 0)
      { mailed src a s with
        rx.peers := s.rx.peers.set src.val { epoch := (s.rx.peers.get src).epoch, lastAccepted := some a.number } } := by
    unfold completeMessage
    dsimp only
    exact if_pos h
  rw [howes, hget, he]
  rfl

/-- What a context has assembled with the bytes of its next cell (R107). -/
def continued (a : Assembly) (c : Cell) : Assembly :=
  { a with bytes := a.bytes ++ c.payload.take (min 16 (a.total - 16 * a.nextIndex)), nextIndex := a.nextIndex + 1, frames := 0 }

/-- R107: the cell that a context waits for is appended, and the LAST one completes the message. -/
theorem laterCell_continues {src : Node} {a : Assembly} {c : Cell} {s : State} (ha : s.rx.contexts.get src = .assembling a)
    (h : a.accepts c = true) : laterCell src c s
      = if c.last then completeMessage src (continued a c) s else withContext src (.assembling (continued a c)) s := by
  have htotal : c.total.toNat = a.total := by
    simp only [Assembly.accepts, Bool.and_eq_true, beq_iff_eq] at h
    exact h.1.1.1.2
  simp only [laterCell, ha, h, if_true, cellBytesOf, htotal]
  rfl

/-- R108: another cell breaks the message off. -/
theorem laterCell_breaks {src : Node} {a : Assembly} {c : Cell} {s : State} (ha : s.rx.contexts.get src = .assembling a)
    (h : ¬a.accepts c = true) : laterCell src c s = { abandoned src s with counters.breaks := up s.counters.breaks } := by
  simp only [laterCell, ha, if_neg h, countBreak_eq, abandonContext_eq_abandoned]
  rfl

/-- Settles O49: the state of the context says what a later cell does. -/
theorem laterCellsContinueMessages : Obligations.LaterCellsContinueMessages := by
  intro slot image src s hgood hepoch hnotice hdata hfirst c u next
  have hexec : exec (.cellReceived image) s = .next (laterCell src c u) := by
    rw [exec_dataCell hgood hepoch hnotice hdata, dataStep, if_neg (by rw [hfirst]; decide)]
  have hcontext : u.rx.contexts.get src = s.rx.contexts.get src := rfl
  refine ⟨fun hidle => ?_, fun frames hd => ?_, fun a ha => ?_⟩
  · refine hexec.trans ?_
    rw [laterCell, hcontext, hidle]
    exact congrArg Host.Outcome.next (countBreak_eq u)
  · refine hexec.trans ?_
    rw [laterCell, hcontext, hd]
    rfl
  · intro fits bytes
    have haccepts : a.accepts c = true ↔ fits := by
      simp [Assembly.accepts, fits, and_assoc]
    refine ⟨fun hnot => ?_, fun hfits hlast => ?_, fun hfits hlast => ⟨fun hack => ?_, fun hack => ?_⟩⟩
    · refine hexec.trans ?_
      rw [laterCell_breaks (by exact ha) (mt haccepts.1 hnot)]
      rfl
    · refine hexec.trans ?_
      rw [laterCell_continues (by exact ha) (haccepts.2 hfits), if_neg (by simp [hlast])]
      rfl
    · refine hexec.trans ?_
      rw [laterCell_continues (by exact ha) (haccepts.2 hfits), if_pos hlast, completeMessage_unacknowledged (by exact hack)]
      rfl
    · refine hexec.trans ?_
      rw [laterCell_continues (by exact ha) (haccepts.2 hfits), if_pos hlast,
        completeMessage_acknowledged (by exact hack) (by exact hepoch)]
      rfl

/-! ## First cells -/

theorem isDuplicate_iff (src : Node) (c : Cell) (s : State) :
    isDuplicate src c s = true ↔ c.ackreq = true ∧ (s.rx.peers.get src).lastAccepted = some c.number := by
  rw [isDuplicate, Bool.and_eq_true, beq_iff_eq]

/-- The message that a FIRST cell begins (R104, R106). -/
def begunBy (c : Cell) : Assembly :=
  { nextIndex := 1, total := c.total.toNat, bytes := c.payload.take (min 16 c.total.toNat), tag := c.tag, ackreq := c.ackreq,
    number := c.number, frames := 0 }

/-- R104: with room a new message takes its blocks, and a single cell completes it. -/
theorem newMessage_admitted {src : Node} {c : Cell} {s : State} (h : roomFor c.total.toNat s) : newMessage src c s
    = if c.last then completeMessage src (begunBy c) { s with rx.freeBlocks := s.rx.freeBlocks - blocks c.total.toNat }
      else withContext src (.assembling (begunBy c)) { s with rx.freeBlocks := s.rx.freeBlocks - blocks c.total.toNat } := by
  simp only [newMessage, (hasRoom_iff _ _).2 h, if_true, blocksFor_eq_blocks]
  rfl

/-- R105: without room it is refused and counted, and a lost unacknowledged message is remembered. -/
theorem newMessage_refused {src : Node} {c : Cell} {s : State} (h : ¬roomFor c.total.toNat s) : newMessage src c s
    = withContext src (if c.last then .idle else .discarding 0)
        { s with
          counters.noRoom := up s.counters.noRoom
          rx.lossCount := if c.ackreq then s.rx.lossCount else upByte s.rx.lossCount } := by
  simp only [newMessage, if_neg (mt (hasRoom_iff _ _).1 h), bump_eq_up, bumpByte_eq_upByte]
  cases c.ackreq <;> rfl

/-- R79: a repeat of the last accepted message is counted and acknowledged again. -/
theorem repeatedCell_eq {src : Node} {c : Cell} {s : State} {epoch : Byte} (he : (s.rx.peers.get src).epoch = some epoch) :
    discardContext src c.last (oweAck src c.number { s with counters.duplicates := bump s.counters.duplicates })
      = withContext src (if c.last then .idle else .discarding 0)
          (owing src c.number epoch { s with counters.duplicates := up s.counters.duplicates }) := by
  rw [oweAck_eq_owing, bump_eq_up, show (({ s with counters.duplicates := up s.counters.duplicates } : State).rx.peers.get src).epoch
    = some epoch from he]
  rfl

/-- Settles O48: a message in progress is broken off, and then the cell is a repeat, is refused, or begins a message. -/
theorem firstCellsStartMessages : Obligations.FirstCellsStartMessages := by
  intro slot image src s hgood hepoch hnotice hdata hfirst c length idle broken next consumed repeated start
  have hexec : exec (.cellReceived image) s = .next (firstCell src c (heard slot s)) := by
    rw [exec_dataCell hgood hepoch hnotice hdata, dataStep, if_pos hfirst]
  have hstart (u : State) (hpeers : u.rx.peers = s.rx.peers) (hmailbox : u.rx.mailbox = s.rx.mailbox)
      (hloss : u.rx.lossCount = s.rx.lossCount) (hframe : u.link.frame = s.link.frame)
      (hduplicates : u.counters.duplicates = s.counters.duplicates) (hnoRoom : u.counters.noRoom = s.counters.noRoom)
      (hu : firstCell src c (heard slot s) = if isDuplicate src c u then discardContext src c.last
          (oweAck src c.number { u with counters.duplicates := bump u.counters.duplicates })
        else newMessage src c u) : start u := by
    have hrepeated : isDuplicate src c u = true ↔ repeated := by rw [isDuplicate_iff, hpeers]
    have hknown : (u.rx.peers.get src).epoch = some c.epoch := by rw [hpeers]; exact hepoch
    refine ⟨fun h => ?_, fun h hroom => ?_, fun h hroom hlast => ?_, fun h hroom hlast => ⟨fun hack => ?_, fun hack => ?_⟩⟩
    · refine hexec.trans ?_
      rw [hu, if_pos (hrepeated.2 h), repeatedCell_eq hknown, hduplicates]
    · refine hexec.trans ?_
      rw [hu, if_neg (mt hrepeated.1 h), newMessage_refused hroom, hnoRoom, hloss]
    · refine hexec.trans ?_
      rw [hu, if_neg (mt hrepeated.1 h), newMessage_admitted hroom, if_neg (by simp [hlast])]
      rfl
    · refine hexec.trans ?_
      rw [hu, if_neg (mt hrepeated.1 h), newMessage_admitted hroom, if_pos hlast, completeMessage_unacknowledged (by exact hack),
        ← hmailbox, ← hloss, ← hframe]
      rfl
    · refine hexec.trans ?_
      rw [hu, if_neg (mt hrepeated.1 h), newMessage_admitted hroom, if_pos hlast,
        completeMessage_acknowledged (by exact hack) (by exact hknown), ← hmailbox, ← hloss, ← hframe, ← hpeers]
      rfl
  refine ⟨fun hidle => hstart _ rfl rfl rfl rfl rfl rfl ?_, fun hbusy => hstart _ rfl rfl rfl rfl rfl rfl ?_⟩
  · have hi : ((heard slot s).rx.contexts.get src).isIdle = true := by
      rw [show (heard slot s).rx.contexts.get src = .idle from hidle]
      rfl
    unfold firstCell
    rw [if_pos hi]
  · have hi : ¬((heard slot s).rx.contexts.get src).isIdle = true := by
      intro h
      refine hbusy (?_ : s.rx.contexts.get src = .idle)
      cases hc : s.rx.contexts.get src with
      | idle => rfl
      | assembling a => exact absurd ((congrArg Context.isIdle hc).symm.trans h) Bool.false_ne_true
      | discarding frames => exact absurd ((congrArg Context.isIdle hc).symm.trans h) Bool.false_ne_true
    unfold firstCell
    rw [if_neg hi, countBreak_eq, abandonContext_eq_abandoned]
    rfl

end Sys2Proof.Machine
end

section
/-! New epochs, control cells on a member, and the permission decision after slot 0 (R7, R9, R17, R18, R30, R44, R78). -/
namespace Sys2Proof.Machine

open Sys2Proof.Claims Sys2Proof.Safety

/-! ## New epochs -/

/-- The reception of a slot and an offered event touch different things, so their order does not matter. -/
theorem heard_offered (slot : Slot) (k : EventKind) (s : State) : offered k (heard slot s) = heard slot (offered k s) := by
  unfold offered
  rw [apply_ite (heard slot)]
  rfl

theorem heard_eq (slot : Slot) (s : State) : heard slot s = { sampled slot s with counters.good := up (sampled slot s).counters.good } := rfl

theorem goodCell_congr {slot : Slot} {image : List Byte} {src : Node} {s t : State} (h : goodCell slot image src s)
    (hstation : t.station = s.station) (hmap : t.map = s.map) (hreceiving : t.rx.receiving = s.rx.receiving)
    (hcontrol : t.rx.controlRecord = s.rx.controlRecord) (hdue : t.due = s.due) : goodCell slot image src t := by
  unfold goodCell ownerChecked ownedBy
  rw [hstation, hmap, hreceiving, hcontrol, hdue]
  exact h

/-- A state in which the epoch of a good cell has been recorded takes the rest of the cell as the part itself does. -/
theorem exec_epochTaken {slot : Slot} {image : List Byte} {src : Node} {s t : State} (h : goodCell slot image src s)
    (h' : goodCell slot image src t) (ht : sameEpoch (readCell image) src t)
    (hstep : epochStep src (readCell image).epoch (heard slot s) = heard slot t) :
    exec (.cellReceived image) s = exec (.cellReceived image) t := by
  have hknown : epochStep src (readCell image).epoch (heard slot t) = heard slot t := if_pos ht
  rw [exec_of_goodCell h, exec_of_goodCell h', handOff_eq, handOff_eq, ← heard_eq, ← heard_eq, hstep, hknown]

/-- Settles O46: the epoch step of the cell gives the state named, which knows the epoch. -/
theorem newEpochsAreTakenFirst : Obligations.NewEpochsAreTakenFirst := by
  intro slot image src s hgood hnew epoch forgotten
  have hstep := (epochStep_cases src epoch (heard slot s)).resolve_left fun h => hnew h.1
  have hrecorded : (forgotten.rx.peers.get src).epoch = some epoch := by
    simp [forgotten, abandoned, withContext, Vector.get_eq_getElem]
  refine ⟨fun hnone => ?_, fun old hold => ?_⟩
  · refine exec_epochTaken hgood hgood hrecorded (hstep.2.trans ?_)
    rw [show ((heard slot s).rx.peers.get src).epoch = none from hnone]
    rfl
  · obtain ⟨-, hstation, -, hmap, -, hrx, -, hdue⟩ := offered_frame (.peerEpoch src old epoch) forgotten
    have hgood' := goodCell_congr hgood (t := offered (.peerEpoch src old epoch) forgotten) hstation hmap
      (congrArg Receiver.receiving hrx :) (congrArg Receiver.controlRecord hrx :) hdue
    refine exec_epochTaken hgood hgood' (by rw [sameEpoch, hrx]; exact hrecorded) (hstep.2.trans ?_)
    rw [show ((heard slot s).rx.peers.get src).epoch = some old from hold, ← heard_offered]
    rfl

/-! ## Control cells -/

/-- Following a control cell writes the master's node, and leaves the frame generation, the staged map, the outcome and the content
alone (R44 to R47). -/
theorem followMap_map (src : Node) (c : ControlContent) (s : State) :
    (followMap src c s).map.masterNode = some src ∧ (followMap src c s).map.frameGeneration = s.map.frameGeneration
      ∧ (followMap src c s).map.staged = s.map.staged ∧ (followMap src c s).map.outcome = s.map.outcome
      ∧ (followMap src c s).map.content = s.map.content := by
  unfold followMap dropPending storePending adoptMap
  dsimp only
  (repeat' split) <;> simp

theorem followMap_unusable {c : ControlContent} (h : unusable c) (src : Node) (s : State) :
    followMap src c s = { s with map.masterNode := some src } := by
  have hnot : ¬usableContent c = true := fun hu => (usableContent_iff c).1 hu h
  rw [followMap, if_neg hnot]

/-- A good cell is counted once; its epoch and its notice leave the station, the link, the maps and that counter alone. -/
theorem noticeStep_epochStep_keeps (src : Node) (c : Cell) (s : State) :
    let u := noticeStep src c (epochStep src c.epoch s)
    u.station = s.station ∧ u.link = s.link ∧ u.map = s.map ∧ u.counters.good = s.counters.good
      ∧ u.counters.silentFrames = s.counters.silentFrames := by
  have hepoch : (epochStep src c.epoch s).counters.good = s.counters.good
      ∧ (epochStep src c.epoch s).counters.silentFrames = s.counters.silentFrames := by
    rcases epochStep_cases src c.epoch s with ⟨-, e⟩ | ⟨-, e⟩
    · rw [e]
      exact ⟨rfl, rfl⟩
    · dsimp only at e
      rw [e]
      rcases (s.rx.peers.get src).epoch with _ | old
      · exact ⟨rfl, rfl⟩
      · unfold offered
        dsimp only
        split <;> exact ⟨rfl, rfl⟩
  have hnotice (v : State) : (noticeStep src c v).station = v.station ∧ (noticeStep src c v).link = v.link
      ∧ (noticeStep src c v).map = v.map ∧ (noticeStep src c v).counters.good = v.counters.good
      ∧ (noticeStep src c v).counters.silentFrames = v.counters.silentFrames := by
    unfold noticeStep
    split
    · rcases applyNotice_cases src c.ackNumber v with ⟨-, e⟩ | ⟨r, -, ⟨-, -, e⟩ | ⟨-, e⟩⟩ <;> rw [e] <;>
        exact ⟨rfl, rfl, rfl, rfl, rfl⟩
    · exact ⟨rfl, rfl, rfl, rfl, rfl⟩
  obtain ⟨h1, h2, h3, h4, h5⟩ := hnotice (epochStep src c.epoch s)
  exact ⟨h1.trans (by simp), h2.trans (by simp), h3.trans (by simp), h4.trans hepoch.1, h5.trans hepoch.2⟩

/-- On a member a control cell is handed off as far as its epoch and notice, and then followed (R30). -/
theorem handOff_controlStep {src : Node} {c : Cell} {s : State} (hkind : c.kind = 3) (hrole : s.station.config.role = .member) :
    handOff src c s = controlStep src c (noticeStep src c (epochStep src c.epoch { s with counters.good := up s.counters.good })) := by
  have hkeeps := (noticeStep_epochStep_keeps src c { s with counters.good := up s.counters.good }).1
  rw [handOff_eq, contentStep, if_pos (by exact hkind), if_pos (by rw [hkeeps]; exact hrole)]

/-- The permission decision leaves the rest of each block alone (R17, R18). -/
theorem decided_keeps (slot : Slot) (s : State) : (decided slot s).rx = s.rx ∧ (decided slot s).station = s.station
    ∧ (decided slot s).link.frame = s.link.frame ∧ (decided slot s).link.controlFlag = s.link.controlFlag
    ∧ (decided slot s).link.lock = s.link.lock ∧ (decided slot s).counters.good = s.counters.good := by
  unfold decided
  split <;> exact ⟨rfl, rfl, rfl, rfl, rfl, rfl⟩

/-- Settles O50: the control step comes last, and the Map Unit's part of it touches the maps and their events alone. -/
theorem controlCellsAreHeard : Obligations.ControlCellsAreHeard := by
  intro slot image src s hgood hkind hrole
  have hexec := exec_of_goodCell hgood
  rw [handOff_controlStep hkind (by exact hrole)] at hexec
  have hkeeps := noticeStep_epochStep_keeps src (readCell image) { sampled slot s with counters.good := up (sampled slot s).counters.good }
  generalize noticeStep src (readCell image) (epochStep src (readCell image).epoch
    { sampled slot s with counters.good := up (sampled slot s).counters.good }) = u at *
  obtain ⟨hstation, hlink, hmap, hcounted, -⟩ := hkeeps
  generalize hv : ({ u with
    rx.controlRecord := some (readContent (readCell image).payload).current
    link.frame := (readContent (readCell image).payload).frame
    link.controlFlag := true } : State) = v
  have hfollowed : controlStep src (readCell image) u = followMap src (readContent (readCell image).payload) v := hv ▸ rfl
  rw [hfollowed] at hexec
  obtain ⟨hrx', hstation', hframe', hflag', hlock', hgood'⟩ := decided_keeps slot (followMap src (readContent (readCell image).payload) v)
  obtain ⟨hmap', hevents', hlost'⟩ := decided_frame slot (followMap src (readContent (readCell image).payload) v)
  obtain ⟨-, hstationF, hlinkF, -, hrxF, -⟩ := followMap_frame src (readContent (readCell image).payload) v
  have hgoodF : (followMap src (readContent (readCell image).payload) v).counters.good = v.counters.good := by rw [followMap_touches]
  obtain ⟨hmaster, hgeneration, hstaged, houtcome, hcontent⟩ := followMap_map src (readContent (readCell image).payload) v
  have hmapv : v.map = s.map := hv ▸ hmap
  refine ⟨_, hexec, ?_, ?_, ?_, ?_, ?_, ?_, ?_, ?_, ?_, ?_, ?_, fun hu => ?_, fun hepoch hnotice => ?_⟩
  · rw [hrx', hrxF, ← hv]
  · rw [hframe', hlinkF, ← hv]
  · rw [hflag', hlinkF, ← hv]
  · rw [hmap', hmaster]
  · rw [hlock', hlinkF, ← hv]
    exact (congrArg LinkTiming.lock hlink :)
  · rw [hstation', hstationF, ← hv]
    exact hstation
  · rw [hmap', hgeneration, hmapv]
  · rw [hmap', hstaged, hmapv]
  · rw [hmap', houtcome, hmapv]
  · rw [hmap', hcontent, hmapv]
  · rw [hgood', hgoodF, ← hv]
    exact hcounted
  · rw [hmap', followMap_unusable hu, hmapv]
  · have hsame := Host.Outcome.next.inj (hexec.symm.trans (exec_controlCell hgood hkind hrole hepoch hnotice))
    rw [hsame]
    obtain ⟨hmapH, heventsH, hlostH⟩ := decided_frame slot
      (followMap src (readContent (readCell image).payload) (heardControl slot (readContent (readCell image).payload) s))
    rw [hmapH, heventsH, hlostH]
    refine ⟨?_, fun hu => ?_⟩
    · conv_lhs => rw [followMap_touches]
      rfl
    · rw [followMap_unusable hu]
      exact ⟨rfl, rfl⟩

/-! ## The permission decision -/

/-- The judgement of an image leaves the lock state, the open decision, the frame generation and the silent frames alone. -/
theorem judgeImage_keeps (slot : Slot) (image : List Byte) (s : State) :
    (judgeImage slot image s).link.lock = s.link.lock ∧ (judgeImage slot image s).link.decisionDue = s.link.decisionDue
      ∧ (judgeImage slot image s).map.frameGeneration = s.map.frameGeneration
      ∧ (judgeImage slot image s).counters.silentFrames = s.counters.silentFrames := by
  have hfollow (src : Node) (c : ControlContent) (v : State) : (followMap src c v).counters.silentFrames = v.counters.silentFrames := by
    rw [followMap_touches]
  have hdata (src : Node) (c : Cell) (v : State) : (dataStep src c v).counters.silentFrames = v.counters.silentFrames := by
    unfold dataStep firstCell laterCell newMessage completeMessage
    dsimp only
    (repeat' split) <;> rfl
  have hcontent (src : Node) (c : Cell) (v : State) : (contentStep src c v).link.lock = v.link.lock
      ∧ (contentStep src c v).link.decisionDue = v.link.decisionDue
      ∧ (contentStep src c v).map.frameGeneration = v.map.frameGeneration
      ∧ (contentStep src c v).counters.silentFrames = v.counters.silentFrames := by
    unfold contentStep controlStep
    (repeat' split)
    · refine ⟨by simp, by simp, (followMap_map _ _ _).2.1, hfollow _ _ _⟩
    · exact ⟨rfl, rfl, rfl, rfl⟩
    · exact ⟨by simp, by simp, by simp, hdata _ _ _⟩
    · exact ⟨rfl, rfl, rfl, rfl⟩
  have hhanded (src : Node) (c : Cell) : (handOff src c s).link.lock = s.link.lock
      ∧ (handOff src c s).link.decisionDue = s.link.decisionDue
      ∧ (handOff src c s).map.frameGeneration = s.map.frameGeneration
      ∧ (handOff src c s).counters.silentFrames = s.counters.silentFrames := by
    obtain ⟨-, hlink, hmap, -, hsilent⟩ := noticeStep_epochStep_keeps src c { s with counters.good := up s.counters.good }
    obtain ⟨h1, h2, h3, h4⟩ := hcontent src c (noticeStep src c (epochStep src c.epoch { s with counters.good := up s.counters.good }))
    rw [handOff_eq, h1, h2, h3, h4, hlink, hmap, hsilent]
    exact ⟨rfl, rfl, rfl, rfl⟩
  unfold judgeImage
  dsimp only
  (repeat' split)
  · exact ⟨rfl, rfl, rfl, rfl⟩
  · exact ⟨rfl, rfl, rfl, rfl⟩
  · exact ⟨rfl, rfl, rfl, rfl⟩
  · exact ⟨rfl, rfl, rfl, rfl⟩
  · exact hhanded _ _

/-- Settles O52: the decision is open when the image has been judged, and is made on what the judgement left. -/
theorem permissionIsDecidedAfterSlotZero : Obligations.PermissionIsDecidedAfterSlotZero := by
  intro image slot s hdue hreceiving h0 hdecision
  obtain ⟨hlock, hdue', hgeneration, hsilent⟩ := judgeImage_keeps slot image (sampled slot s)
  refine ⟨_, exec_cellReceived hdue hreceiving image, ?_⟩
  generalize judgeImage slot image (sampled slot s) = u at *
  have hopen : slot.val = 0 ∧ u.link.decisionDue = true := ⟨h0, hdue'.trans hdecision⟩
  rw [decided, if_pos hopen]
  refine ⟨rfl, ?_, ?_⟩
  · simp only [decide_eq_true_iff]
    rw [hlock, hgeneration]
    rfl
  · dsimp only
    rw [hsilent]
    rfl

end Sys2Proof.Machine
end
